-- ==== Sys2Proof/Word.lean ====
section
/-! DEFINITION. The value types of the CORE (00_scope R9): bytes, 32-bit words, positions, the running block counter. -/

namespace Sys2Proof

/-- R9: an unsigned integer in 0..255. -/
abbrev Byte := BitVec 8

/-- R9: an unsigned integer in 0..2^32 − 1; all word arithmetic is on this type. -/
abbrev Word := BitVec 32

/-- R83: an unsigned 4-bit number 0..15 naming a word of the working state. -/
abbrev Pos := Fin 16

/-- R24: the running block counter, one bit wider than a word so that one past `0xFFFFFFFF` can be held. -/
abbrev Ctr := BitVec 33

end Sys2Proof
end

