-- ==== Sys2Proof/Machine/Operands.lean ====
section
/-! DEFINITION. Byte order and operand assembly (00_scope R11, 20_memory R50, 30_encoding R80 to R83): every conversion
between bytes and words is little-endian and is decided here, once. -/

namespace Sys2Proof.Machine

/-- R11 `LE32`: four bytes, the first least significant, as a word. -/
def le32 (b0 b1 b2 b3 : Byte) : Word := b3 ++ b2 ++ b1 ++ b0

/-- R11 `BYTES32`: the four bytes of a word, least significant first. -/
def bytes32 (w : Word) : Vector Byte 4 :=
  #v[w.extractLsb' 0 8, w.extractLsb' 8 8, w.extractLsb' 16 8, w.extractLsb' 24 8]

/-- R11 `LEW(s, k)`: word `k` of a byte string. -/
def lew {n : Nat} (s : Vector Byte n) (k : Nat) (h : 4 * k + 3 < n := by omega) : Word :=
  le32 s[4 * k] s[4 * k + 1] s[4 * k + 2] s[4 * k + 3]

/-- R72, R155: 64 bytes read as sixteen words, word `i` at offsets `4i` to `4i + 3`. -/
def wordsOfBytes (b : Vector Byte 64) : Vector Word 16 :=
  Vector.ofFn fun i : Fin 16 => lew b i.val

/-- R76, R126: sixteen words written as 64 bytes, word 0 first, each least significant byte first. -/
def bytesOfWords (f : Vector Word 16) : Vector Byte 64 :=
  Vector.ofFn fun i : Fin 64 => (bytes32 (f[i.val / 4]'(by omega)))[i.val % 4]'(by omega)

/-- R71: the number a field of bytes holds, least significant byte at the lowest offset. -/
def leNat : List Byte → Nat
  | [] => 0
  | b :: bs => b.toNat + 256 * leNat bs

/-- R71: the `n` low bytes of a number, least significant first. -/
def leBytes : Nat → Nat → List Byte
  | 0, _ => []
  | n + 1, v => BitVec.ofNat 8 v :: leBytes n (v / 256)

/-- R72: bits [7:4] of a position byte. -/
def highPos (b : Byte) : Pos := (b.extractLsb' 4 4).toFin

/-- R72: bits [3:0] of a position byte. -/
def lowPos (b : Byte) : Pos := (b.extractLsb' 0 4).toFin

/-- R72: a position byte, first position in bits [7:4], second in bits [3:0]. -/
def posByte (p q : Pos) : Byte := BitVec.ofNat 4 p.val ++ BitVec.ofNat 4 q.val

/-- A byte string of exactly `n` bytes as a vector: the typed form in which BLOCKFN takes its key and nonce (U9). -/
def exactBytes (n : Nat) (l : List Byte) : Option (Vector Byte n) :=
  if h : l.length = n then some ⟨l.toArray, by simpa using h⟩ else none

/-- R10 `XOR8`, byte by byte along two byte strings. -/
def xorBytes (p q : List Byte) : List Byte := List.zipWith (fun a b => a ^^^ b) p q

/-- R106: the four positions are pairwise distinct. -/
def distinctPositions (pa pb pc pd : Pos) : Bool :=
  pa != pb && pa != pc && pa != pd && pb != pc && pb != pd && pc != pd

end Sys2Proof.Machine
end

