-- ==== Sys2Proof/Syntax.lean ====
section
/-! DEFINITION. The operations of the CORE and their operands (30_encoding R70): one constructor per row of the opcode
table. ENCRYPT and DECRYPT are spellings of TRANSFORM (R88) and have no constructor; `Machine/Asm.lean` reads them. -/

namespace Sys2Proof

/-- R70: an operation is a record of typed operands. Key and nonce are byte strings of any length at this level,
because a wrong length is a detected failure. -/
inductive Instr where
  /-- QR (R105): one quarter-round on the state `x` at the positions `pa pb pc pd` -/
  | qr (x : Vector Word 16) (pa pb pc pd : Pos)
  /-- BLOCK (R128): one 64-byte keystream block -/
  | block (key : List Byte) (counter : Word) (nonce : List Byte)
  /-- TRANSFORM (R140): encrypt or decrypt `data` -/
  | transform (data key nonce : List Byte) (initialCounter : Word)
  /-- SELFTEST (R160) -/
  | selftest
deriving DecidableEq, Repr

end Sys2Proof
end

