-- ==== Sys2Proof/WellFormed.lean ====
section
/-! DEFINITION. Which operations a request frame can carry: the length fields of R73 and R74 hold the lengths of the
buffers they announce (KLEN and NLEN one byte each, D18; LEN 64 bits, D17). -/

namespace Sys2Proof

/-- The length fields of the frame of `i` can hold the lengths of its byte strings. -/
def Instr.wellFormed : Instr → Bool
  | .qr _ _ _ _ _ => true
  | .block key _ nonce => decide (key.length < 2 ^ 8) && decide (nonce.length < 2 ^ 8)
  | .transform data key nonce _ =>
    decide (data.length < 2 ^ 64) && decide (key.length < 2 ^ 8) && decide (nonce.length < 2 ^ 8)
  | .selftest => true

/-- `Instr.wellFormed` as a proposition. -/
abbrev Instr.WellFormed (i : Instr) : Prop := i.wellFormed = true

end Sys2Proof
end

