-- ==== Sys2Proof/Decode.lean ====
section
/-! DEFINITION. Request frames (30_encoding R71 to R86): the decoder, total on byte strings and rejecting by name, and
after it the encoder of the same four formats. -/

namespace Sys2Proof

open Sys2Proof.Machine

/-- Why a request is not a frame (R78); every one is answered `InvalidInput` (R84, R85). -/
inductive DecodeError where
  /-- the empty request (R84) -/
  | emptyRequest
  /-- opcode 0x00 or 0x05 to 0xFF (R84) -/
  | reservedOpcode (op : Byte)
  /-- shorter than the header of format B or T (R78) -/
  | shortHeader
  /-- the length differs from the length the header implies (R85) -/
  | lengthMismatch
deriving DecidableEq, Repr

/-- R79 -/
def opQr : Byte := 0x01
/-- R79 -/
def opBlock : Byte := 0x02
/-- R79 -/
def opTransform : Byte := 0x03
/-- R79 -/
def opSelftest : Byte := 0x04

/-- Format Q after the opcode (R72): PAB, PCD, XIN. -/
def decodeQ : List Byte → Except DecodeError Instr
  | pab :: pcd :: xin =>
    match exactBytes 64 xin with
    | some v => .ok (.qr (wordsOfBytes v) (highPos pab) (lowPos pab) (highPos pcd) (lowPos pcd))
    | none => .error .lengthMismatch
  | _ => .error .lengthMismatch

/-- Format B after the opcode (R73): KLEN, NLEN, CTR0, KEY, NONCE. -/
def decodeB : List Byte → Except DecodeError Instr
  | klen :: nlen :: c0 :: c1 :: c2 :: c3 :: rest =>
    if rest.length = klen.toNat + nlen.toNat then
      .ok (.block (rest.take klen.toNat) (le32 c0 c1 c2 c3) (rest.drop klen.toNat))
    else .error .lengthMismatch
  | _ => .error .shortHeader

/-- Format T after the opcode (R74): KLEN, NLEN, CTR0, LEN, KEY, NONCE, DATA. -/
def decodeT : List Byte → Except DecodeError Instr
  | klen :: nlen :: c0 :: c1 :: c2 :: c3 :: l0 :: l1 :: l2 :: l3 :: l4 :: l5 :: l6 :: l7 :: rest =>
    if rest.length = klen.toNat + nlen.toNat + leNat [l0, l1, l2, l3, l4, l5, l6, l7] then
      .ok (.transform (rest.drop (klen.toNat + nlen.toNat)) (rest.take klen.toNat)
        ((rest.drop klen.toNat).take nlen.toNat) (le32 c0 c1 c2 c3))
    else .error .lengthMismatch
  | _ => .error .shortHeader

/-- Format S after the opcode (R75): nothing. -/
def decodeS : List Byte → Except DecodeError Instr
  | [] => .ok .selftest
  | _ :: _ => .error .lengthMismatch

/-- R78: the decoder. The opcode is the whole first byte (R79); there are no prefixes, modes or hints (R84, R86). -/
def decode : List Byte → Except DecodeError Instr
  | [] => .error .emptyRequest
  | op :: body =>
    if op = opQr then decodeQ body
    else if op = opBlock then decodeB body
    else if op = opTransform then decodeT body
    else if op = opSelftest then decodeS body
    else .error (.reservedOpcode op)

/-- R78: `need`, the length in bytes that the header of a request implies. -/
def neededLength : List Byte → Except DecodeError Nat
  | [] => .error .emptyRequest
  | op :: body =>
    if op = opQr then .ok 67
    else if op = opBlock then
      match body with
      | klen :: nlen :: _ :: _ :: _ :: _ :: _ => .ok (7 + klen.toNat + nlen.toNat)
      | _ => .error .shortHeader
    else if op = opTransform then
      match body with
      | klen :: nlen :: _ :: _ :: _ :: _ :: l0 :: l1 :: l2 :: l3 :: l4 :: l5 :: l6 :: l7 :: _ =>
        .ok (15 + klen.toNat + nlen.toNat + leNat [l0, l1, l2, l3, l4, l5, l6, l7])
      | _ => .error .shortHeader
    else if op = opSelftest then .ok 1
    else .error (.reservedOpcode op)

/-- R72 to R75: the request frame of an operation. -/
def encode : Instr → List Byte
  | .qr x pa pb pc pd => opQr :: posByte pa pb :: posByte pc pd :: (bytesOfWords x).toList
  | .block key counter nonce =>
    opBlock :: BitVec.ofNat 8 key.length :: BitVec.ofNat 8 nonce.length ::
      ((bytes32 counter).toList ++ key ++ nonce)
  | .transform data key nonce initialCounter =>
    opTransform :: BitVec.ofNat 8 key.length :: BitVec.ofNat 8 nonce.length ::
      ((bytes32 initialCounter).toList ++ leBytes 8 data.length ++ key ++ nonce ++ data)
  | .selftest => [opSelftest]

/-- The length of the fixed header of a format (R72 to R75). -/
def headerLength (op : Byte) : Nat :=
  if op = opQr then 3 else if op = opBlock then 7 else if op = opTransform then 15 else 1

/-- `l` followed by zero bytes up to `n` bytes in all. -/
def padTo (n : Nat) (l : List Byte) : List Byte := l ++ List.replicate (n - l.length) 0

/-- The request whose first bytes are the `nbits` bits `w` (byte 0 in the low bits) and whose bytes above them, up to
the length its header then implies (R78), are zero. -/
def tableRequest (nbits w : Nat) : List Byte :=
  let given := leBytes ((nbits + 7) / 8) w
  let headed := padTo (headerLength (given.headD 0)) given
  match neededLength headed with
  | .ok need => padTo need headed
  | .error _ => headed

/-- The instruction the decoder reads from the request of `tableRequest`, for the host's opcode table. -/
def decodeTableWord (nbits w : Nat) : Option Instr :=
  match decode (tableRequest nbits w) with
  | .ok i => some i
  | .error _ => none

end Sys2Proof
end

