-- ==== Sys2Proof/Machine/QuarterRound.lean ====
section
/-! DEFINITION. The quarter-round mixer (40_quarter_round R100 to R104): the word primitives, QR4 on four words, QRAT by
position. All total functions on words; no flag and no failure. -/

namespace Sys2Proof.Machine

/-- R100 -/
def add32 (a b : Word) : Word := a + b

/-- R101 -/
def xor32 (a b : Word) : Word := a ^^^ b

/-- R102; used with `n` = 16, 12, 8, 7 only. -/
def rotl32 (a : Word) (n : Nat) : Word := (a <<< n) ||| (a >>> (32 - n))

/-- R103 `QR4`: the twelve assignments, in the spec's order. -/
def qr4 (q : Word × Word × Word × Word) : Word × Word × Word × Word :=
  let (a, b, c, d) := q
  let a := add32 a b
  let d := xor32 d a
  let d := rotl32 d 16
  let c := add32 c d
  let b := xor32 b c
  let b := rotl32 b 12
  let a := add32 a b
  let d := xor32 d a
  let d := rotl32 d 8
  let c := add32 c d
  let b := xor32 b c
  let b := rotl32 b 7
  (a, b, c, d)

/-- R104 `QRAT`: QR4 on the words at four pairwise distinct positions, written back to them. Repeated positions are
outside the rule; no caller passes them (R106, R122). -/
def qrAt (x : Vector Word 16) (i j k l : Pos) : Vector Word 16 :=
  let r := qr4 (x[i], x[j], x[k], x[l])
  (((x.set i r.1).set j r.2.1).set k r.2.2.1).set l r.2.2.2

end Sys2Proof.Machine
end

