-- ==== Sys2Proof/Machine/BlockFunction.lean ====
section
/-! DEFINITION. The block function as a function of its three operands (41_block R120 to R127), the normative big-step
form (R131). The register form that the operations run is in `Machine/Ops.lean`. -/

namespace Sys2Proof.Machine

/-- R120 `INIT`: constants, key words, counter, nonce words (R80 to R82). -/
def initWords (key : Vector Byte 32) (ctr : Word) (nonce : Vector Byte 12) : Vector Word 16 :=
  #v[0x61707865, 0x3320646e, 0x79622d32, 0x6b206574,
     lew key 0, lew key 1, lew key 2, lew key 3,
     lew key 4, lew key 5, lew key 6, lew key 7,
     ctr, lew nonce 0, lew nonce 1, lew nonce 2]

/-- R122 `SCHED`: the eight position groups of a double round, four columns then four diagonals. -/
def sched : Vector (Pos × Pos × Pos × Pos) 8 :=
  #v[(0, 4, 8, 12), (1, 5, 9, 13), (2, 6, 10, 14), (3, 7, 11, 15),
     (0, 5, 10, 15), (1, 6, 11, 12), (2, 7, 8, 13), (3, 4, 9, 14)]

/-- QRAT at one group of the schedule. -/
def qrGroup (x : Vector Word 16) (g : Pos × Pos × Pos × Pos) : Vector Word 16 :=
  qrAt x g.1 g.2.1 g.2.2.1 g.2.2.2

/-- R123 `DOUBLEROUND` -/
def doubleRound (x : Vector Word 16) : Vector Word 16 := sched.toList.foldl qrGroup x

/-- `n` double rounds, one after the other. -/
def doubleRounds : Nat → Vector Word 16 → Vector Word 16
  | 0, x => x
  | n + 1, x => doubleRounds n (doubleRound x)

/-- R124 `ROUNDS`: ten double rounds (C4: 80 quarter-rounds). -/
def rounds (x : Vector Word 16) : Vector Word 16 := doubleRounds 10 x

/-- R125 `FEEDFORWARD`: word by word, no carry between words. -/
def feedForward (x s : Vector Word 16) : Vector Word 16 :=
  Vector.ofFn fun i : Fin 16 => add32 x[i] s[i]

/-- R127 `BLOCKFN`: the block function without length checks; its operand types are exactly 32 and 12 bytes (U9). -/
def blockFn (key : Vector Byte 32) (ctr : Word) (nonce : Vector Byte 12) : Vector Byte 64 :=
  let s := initWords key ctr nonce
  bytesOfWords (feedForward (rounds s) s)

/-- R161 `ST_KEY`: byte `i` has value `i`. -/
def stKey : Vector Byte 32 := Vector.ofFn fun i : Fin 32 => BitVec.ofNat 8 i.val

/-- R161 `ST_NONCE` -/
def stNonce : Vector Byte 12 :=
  #v[0x00, 0x00, 0x00, 0x09, 0x00, 0x00, 0x00, 0x4a, 0x00, 0x00, 0x00, 0x00]

/-- R161: the counter of the self-test vector. -/
def stCounter : Word := 1

/-- R161 `ST_EXPECT` -/
def stExpect : Vector Byte 64 :=
  #v[0x10, 0xf1, 0xe7, 0xe4, 0xd1, 0x3b, 0x59, 0x15, 0x50, 0x0f, 0xdd, 0x1f, 0xa3, 0x20, 0x71, 0xc4,
     0xc7, 0xd1, 0xf4, 0xc7, 0x33, 0xc0, 0x68, 0x03, 0x04, 0x22, 0xaa, 0x9a, 0xc3, 0xd4, 0x6c, 0x4e,
     0xd2, 0x82, 0x64, 0x46, 0x07, 0x9f, 0xaa, 0x09, 0x14, 0xc2, 0xd7, 0x05, 0xd9, 0x8b, 0x02, 0xa2,
     0xb5, 0x12, 0x9c, 0xd1, 0xde, 0x16, 0x4e, 0xb9, 0xcb, 0xd0, 0x83, 0xe8, 0xa2, 0x50, 0x3c, 0x4e]

end Sys2Proof.Machine
end

