-- ==== Sys2Proof/Config.lean ====
section
/-! DEFINITION. What an implementation fixes (00_scope R8): the parameters the spec leaves open. They are carried in
`State.params`, which no step changes, so a statement over all states holds for every value of them. -/

namespace Sys2Proof

/-- R8, R145, 92_eei_decisions D8: where counter overflow is detected. -/
inductive OverflowPolicy where
  /-- the spec's choice: `CounterOverflow` only when a block with counter above `0xFFFFFFFF` would be generated -/
  | lazy
  /-- the alternative the spec names: the test sits after the increment -/
  | eager
deriving DecidableEq, Repr

/-- R8: the open parameters that the meaning of an operation depends on (NUM_INSTANCES is an index of
`Machine/Instances.lean`; KLEN_MAX and NLEN_MAX are the frame's 255; QR_REPEATED_POSITIONS has the one value `refuse`). -/
structure Params where
  /-- OVERFLOW_POLICY -/
  overflowPolicy : OverflowPolicy
  /-- MAX_LEN, the largest data length one TRANSFORM accepts (D17, U4) -/
  maxLen : Nat
deriving DecidableEq, Repr

/-- The parameters of the machine after `State.reset`: `lazy` is the spec's default (D8).
DESIGN CHOICE (unsafe, log entry 3): MAX_LEN is open in the spec; 2^64 − 1, the longest LEN a frame can say, so that
no well-formed request is refused for its length. -/
def defaultParams : Params := ⟨.lazy, 2 ^ 64 - 1⟩

end Sys2Proof
end

