-- ==== Sys2Proof/Machine/State.lean ====
section
/-! DEFINITION. The state of one CORE instance as plain data (10_state), the reasons a step can stop, and the state after
reset (R32, R190). -/

namespace Sys2Proof.Machine

/-- R25: the result of an operation. -/
inductive Status where
  | ok
  | invalidInput
  | counterOverflow
deriving DecidableEq, Repr

/-- R27: the five byte buffers. An address is a pair of a buffer and a byte offset (R58). -/
inductive Buf where
  | key | nonce | data | ks | out
deriving DecidableEq, Repr

/-- R27: the contents of the buffers. A byte string is in canonical form as it stands: equal buffers are equal lists. -/
structure Memory where
  /-- KEY, written by the host, read-only to the CORE -/
  key : List Byte
  /-- NONCE, written by the host, read-only to the CORE -/
  nonce : List Byte
  /-- DATA, written by the host, read-only to the CORE -/
  data : List Byte
  /-- KS, the keystream block (R22) -/
  ks : Vector Byte 64
  /-- OUT, the bytes written so far from offset 0 up (R55), write-only to the CORE -/
  out : List Byte
  /-- the size of OUT in bytes -/
  outSize : Nat
deriving DecidableEq, Repr

/-- The state of one CORE instance: everything 10_state gives it, and its open parameters. -/
structure State where
  /-- X, the working state (R20) -/
  x : Vector Word 16
  /-- S, the initial state (R21) -/
  s : Vector Word 16
  /-- DR, the double-round index, 0..10 (R23) -/
  dr : Fin 11
  /-- QI, the quarter-round index inside the double round (R23) -/
  qi : Fin 8
  /-- CTR, the running block counter (R24) -/
  ctr : Ctr
  /-- OFF, the byte offset of the stream driver (R24) -/
  off : Nat
  /-- CTR0, latched operand (R28) -/
  ctr0 : Word
  /-- KLEN, latched length of KEY (R28) -/
  klen : Nat
  /-- NLEN, latched length of NONCE (R28) -/
  nlen : Nat
  /-- LEN, latched length of DATA (R28) -/
  len : Nat
  /-- PA, latched position of QR (R28) -/
  pa : Pos
  /-- PB -/
  pb : Pos
  /-- PC -/
  pc : Pos
  /-- PD -/
  pd : Pos
  /-- STATUS (R25) -/
  status : Status
  /-- busy / idle (R32, R190): an operation is running -/
  busy : Bool
  /-- the buffers KEY, NONCE, DATA, KS, OUT (R27) -/
  mem : Memory
  /-- REQ, the request handed to the CORE and not yet executed (R71) -/
  req : Option (List Byte)
  /-- RSP, the response pending for the host (R76) -/
  rsp : Option (List Byte)
  /-- the open parameters of R8; no step changes them (log entry 2) -/
  params : Params
deriving DecidableEq, Repr

/-- Reasons the machine stops with a fault. The spec gives the CORE none (R173): `InvalidInput` and `CounterOverflow`
are responses after which it goes on. -/
inductive Fault where
  /-- An access outside a buffer or against its access right (R27, R56). Raised by the buffer accesses of
  `Machine/Ops.lean`; the spec says it cannot happen and no operation reaches it. Safe. -/
  | bufferAccess
deriving DecidableEq, Repr

/-- Reasons a request has no meaning. -/
inductive Refusal where
  /-- An arm of `exec` without a meaning; no arm of this model raises it. Safe. -/
  | notModelled (mnemonic : String)
  /-- QR with two or more equal positions: the spec says a model must refuse it (R106, U1). Raised by `execQr`. Safe. -/
  | repeatedPositions
  /-- TRANSFORM with LEN above MAX_LEN: the spec says the model refuses it (U4, D17). Raised by `execTransform`. Safe. -/
  | lengthAboveMax
  /-- A request to an instance that has not answered the previous one (U3, R198): the host has no such move. Raised by
  `step` on a busy instance and by `hostSubmit`. Safe. -/
  | busyInstance
deriving DecidableEq, Repr

/-- The buffers after reset. DESIGN CHOICE (unsafe, log entry 1): the spec leaves every value unspecified (R32). -/
def Memory.reset : Memory :=
  { key := [], nonce := [], data := [], ks := Vector.replicate 64 0, out := [], outSize := 0 }

/-- The machine right after reset: idle, no operation running, no response pending, ready for a request (R190).
DESIGN CHOICE (unsafe, log entry 1): the spec gives no register a reset value (R32); all are zero here, STATUS is OK. -/
def State.reset : State :=
  { x := Vector.replicate 16 0, s := Vector.replicate 16 0, dr := 0, qi := 0, ctr := 0, off := 0,
    ctr0 := 0, klen := 0, nlen := 0, len := 0, pa := 0, pb := 0, pc := 0, pd := 0,
    status := .ok, busy := false, mem := Memory.reset, req := none, rsp := none, params := defaultParams }

end Sys2Proof.Machine
end

