-- ==== Sys2Proof/Machine/Flags.lean ====
section
/-! DEFINITION. The CORE has no condition codes and no arithmetic flags (10_state R25, 40_quarter_round R100); what it has
in their place is STATUS, its two failures and their codes (30_encoding R77, 60_exceptions R170). -/

namespace Sys2Proof.Machine

/-- R170: the complete list of failure conditions. -/
inductive Failure where
  /-- wrong key or nonce length, or a malformed request (R171) -/
  | invalidInput
  /-- the data need a block whose counter would be above `0xFFFFFFFF` (R172) -/
  | counterOverflow
deriving DecidableEq, Repr

/-- The value a failure leaves in STATUS (R174). -/
def Failure.toStatus : Failure → Status
  | .invalidInput => .invalidInput
  | .counterOverflow => .counterOverflow

/-- R77: the code a status is reported by; 0x03 to 0xFF are never produced. -/
def Status.code : Status → Byte
  | .ok => 0x00
  | .invalidInput => 0x01
  | .counterOverflow => 0x02

/-- R142: `CTR > 0xFFFFFFFF`. -/
def counterPast (c : Ctr) : Bool := decide (0xFFFFFFFF#33 < c)

end Sys2Proof.Machine
end

