-- ==== Sys2Proof/Machine/Ops.lean ====
section
/-! DEFINITION. The named operations over the state that the meanings are made of: buffer accesses (00_scope R12), taking
up a request and answering it, the failure entry (60_exceptions R174), and the block function on the registers with its
sequencer (10_state R23, 41_block R131). -/

namespace Sys2Proof.Machine

/-- The three outcomes of the host's interface for this machine. -/
abbrev Result := Host.Outcome State Fault Refusal

/-- Go on with `f` while the operation runs; a failure has ended it (R174: no further step of its pseudocode runs), and
a fault or a refusal stops the machine. -/
def thenRun (r : Result) (f : State → Result) : Result :=
  match r with
  | .next s => if s.busy then f s else .next s
  | .fault e => .fault e
  | .refused e => .refused e

/-! Buffers. -/

/-- R27: which buffers the CORE may read. -/
def Buf.readable : Buf → Bool
  | .out => false
  | _ => true

/-- The bytes a buffer holds. -/
def Memory.bytes (m : Memory) : Buf → List Byte
  | .key => m.key
  | .nonce => m.nonce
  | .data => m.data
  | .ks => m.ks.toList
  | .out => m.out

/-- R12 `MemRead(B, off, n)`; `none` outside the buffer or on OUT, which is write-only (R27, R56). -/
def Memory.read (m : Memory) (b : Buf) (off n : Nat) : Option (List Byte) :=
  if b.readable ∧ off + n ≤ (m.bytes b).length then some (((m.bytes b).drop off).take n) else none

/-- R12 `MemWrite(OUT, off, n, v)`, the one buffer written piece by piece (KS is written whole, R22); `none` outside the
buffer, on the read-only buffers, or past the bytes already written (R55: in increasing offset order). -/
def Memory.write (m : Memory) (b : Buf) (off : Nat) (v : List Byte) : Option Memory :=
  match b with
  | .out =>
    if off ≤ m.out.length ∧ off + v.length ≤ m.outSize then
      some { m with out := m.out.take off ++ v ++ m.out.drop (off + v.length) }
    else none
  | _ => none

/-- The whole of a buffer that must be exactly `n` bytes long. -/
def Memory.readExact (m : Memory) (b : Buf) (n : Nat) : Option (Vector Byte n) :=
  match m.read b 0 n with
  | some l => exactBytes n l
  | none => none

/-- The buffers have the sizes their latches say (R27, R28), and OUT holds no more than its size. -/
def Memory.wf (s : State) : Bool :=
  decide (s.mem.key.length = s.klen) && decide (s.mem.nonce.length = s.nlen) &&
    decide (s.mem.data.length = s.len) && decide (s.mem.out.length ≤ s.mem.outSize)

/-- A fresh OUT of `n` bytes, none written yet (R27). -/
def State.allocOut (n : Nat) (s : State) : State :=
  { s with mem := { s.mem with out := [], outSize := n } }

/-- Write `v` to OUT at `off`, or fault (R56 says no operation does). -/
def State.writeOut (off : Nat) (v : List Byte) (s : State) : Result :=
  match s.mem.write .out off v with
  | some m => .next { s with mem := m }
  | none => .fault .bufferAccess

/-! Taking up a request and answering it. -/

/-- An operation starts: busy, the request taken, no response pending (R54, R190). -/
def State.accept (s : State) : State := { s with busy := true, req := none, rsp := none }

/-- Latch key, nonce and counter of BLOCK or TRANSFORM (R28) and hand over their buffers by value (R27). -/
def State.latchKeyNonce (key nonce : List Byte) (counter : Word) (s : State) : State :=
  { s with klen := key.length, nlen := nonce.length, ctr0 := counter,
           mem := { s.mem with key := key, nonce := nonce } }

/-- Latch the data of TRANSFORM (R27, R28). -/
def State.latchData (data : List Byte) (s : State) : State :=
  { s with len := data.length, mem := { s.mem with data := data } }

/-- R128, R141: the length check of BLOCK and TRANSFORM. -/
def State.lengthsValid (s : State) : Bool := decide (s.klen = 32) && decide (s.nlen = 12)

/-- TAKING A FAILURE, R174 `raise F`: the operation ends, `STATUS <- F`, the response is the one byte of the code, the
CORE is idle. Nothing is saved and control goes nowhere inside the CORE; there is no handler, so the response is also
the return (R177). -/
def raiseFailure (f : Failure) (s : State) : State :=
  { s with status := f.toStatus, busy := false, rsp := some [f.toStatus.code] }

/-- The end of an operation that succeeds, R76: `STATUS <- OK`, the response is the code and the bytes of OUT, the CORE
is idle. -/
def respondOk (s : State) : State :=
  { s with status := .ok, busy := false, rsp := some (Status.ok.code :: s.mem.out) }

/-- A request that is no frame is answered `InvalidInput` (R84, R85). -/
def rejectFrame (s : State) : State := raiseFailure .invalidInput s.accept

/-! The block function on the registers. -/

/-- R120 `INIT` -/
def State.initBlock (key : Vector Byte 32) (ctr : Word) (nonce : Vector Byte 12) (s : State) : State :=
  { s with s := initWords key ctr nonce }

/-- R121 `COPY` -/
def State.copyToWorking (s : State) : State := { s with x := s.s }

/-- R23: a block starts with `DR = 0`, `QI = 0`. -/
def State.startRounds (s : State) : State := { s with dr := 0, qi := 0 }

/-- R23: `QI <- QI + 1`; when it would become 8 it becomes 0 and `DR <- DR + 1`. -/
def State.advance (s : State) : State :=
  if s.qi = 7 then { s with qi := 0, dr := s.dr + 1 } else { s with qi := s.qi + 1 }

/-- R131: one quarter-round step, QRAT at `SCHED[QI]`, then the sequencer advances. -/
def State.quarterStep (s : State) : State :=
  State.advance { s with x := qrGroup s.x sched[s.qi] }

/-- Quarter-round steps while `DR < 10`, at most `n` of them. -/
def runRounds : Nat → State → State
  | 0, s => s
  | n + 1, s => if s.dr < 10 then runRounds n s.quarterStep else s

/-- R125, R126: FEEDFORWARD and SERIALISE into KS, the final step of a block. -/
def State.finishBlock (s : State) : State :=
  { s with mem := { s.mem with ks := bytesOfWords (feedForward s.x s.s) } }

/-- R127 `BLOCKFN` on the registers, in the small-step view of R131: INIT, COPY, 80 quarter-round steps, the final step. -/
def State.runBlock (key : Vector Byte 32) (ctr : Word) (nonce : Vector Byte 12) (s : State) : State :=
  State.finishBlock (runRounds 80 (State.startRounds (State.copyToWorking (s.initBlock key ctr nonce))))

/-- `KS <- BLOCKFN(key, ctr, nonce)` with the key and nonce of the KEY and NONCE buffers (R155). -/
def State.runBlockFromBuffers (ctr : Word) (s : State) : Result :=
  match s.mem.readExact .key 32, s.mem.readExact .nonce 12 with
  | some key, some nonce => .next (s.runBlock key ctr nonce)
  | _, _ => .fault .bufferAccess

end Sys2Proof.Machine
end

