-- ==== Sys2Proof/Machine/Block.lean ====
section
/-! DEFINITION. The meaning of BLOCK (41_block R128). -/

namespace Sys2Proof.Machine

/-- R155: the result of BLOCK, KS copied to OUT. -/
def State.copyKsToOut (s : State) : Result :=
  match s.mem.read .ks 0 64 with
  | some ks => (s.allocOut 64).writeOut 0 ks
  | none => .fault .bufferAccess

/-- BLOCK: `InvalidInput` unless the key has 32 bytes and the nonce 12 (R128, C2); else the 64 bytes of BLOCKFN. -/
def execBlock (key : List Byte) (counter : Word) (nonce : List Byte) (s : State) : Result :=
  let s := s.accept.latchKeyNonce key nonce counter
  if s.lengthsValid then
    thenRun (s.runBlockFromBuffers s.ctr0) fun s =>
      thenRun s.copyKsToOut fun s => .next (respondOk s)
  else .next (raiseFailure .invalidInput s)

end Sys2Proof.Machine
end

