-- ==== Sys2Proof/Machine/Qr.lean ====
section
/-! DEFINITION. The meaning of QR (40_quarter_round R105, R106). -/

namespace Sys2Proof.Machine

/-- R28, R105: latch the positions and load X from the operand. -/
def State.latchQr (x : Vector Word 16) (pa pb pc pd : Pos) (s : State) : State :=
  { s with x := x, pa := pa, pb := pb, pc := pc, pd := pd }

/-- R105: `QRAT(X, PA, PB, PC, PD)`. -/
def State.qrAtLatched (s : State) : State := { s with x := qrAt s.x s.pa s.pb s.pc s.pd }

/-- QR: repeated positions are refused (R106); else load X, apply QRAT, answer OK with the sixteen words of X (R76). -/
def execQr (x : Vector Word 16) (pa pb pc pd : Pos) (s : State) : Result :=
  if distinctPositions pa pb pc pd then
    let s := State.qrAtLatched (State.latchQr x pa pb pc pd s.accept)
    thenRun ((s.allocOut 64).writeOut 0 (bytesOfWords s.x).toList) fun s => .next (respondOk s)
  else .refused .repeatedPositions

end Sys2Proof.Machine
end

