-- ==== Sys2Proof/Machine/Selftest.lean ====
section
/-! DEFINITION. The meaning of SELFTEST (43_selftest R160, R161), by its pseudocode and not as the constant it equals
(R162). -/

namespace Sys2Proof.Machine

/-- R160: compare the 64 bytes of KS with the published ones, byte for byte; the result is one byte (R76). -/
def State.compareKs (s : State) : Result :=
  match s.mem.read .ks 0 64 with
  | some ks => (s.allocOut 1).writeOut 0 [if ks = stExpect.toList then 0x01 else 0x00]
  | none => .fault .bufferAccess

/-- SELFTEST: BLOCKFN on the constants of R161, then the comparison; it ends with OK whatever the comparison says. -/
def execSelftest (s : State) : Result :=
  thenRun (State.compareKs (s.accept.runBlock stKey stCounter stNonce)) fun s => .next (respondOk s)

end Sys2Proof.Machine
end

