-- ==== Sys2Proof/Machine/Transform.lean ====
section
/-! DEFINITION. The meaning of TRANSFORM (42_stream R140 to R146): the stream driver. -/

namespace Sys2Proof.Machine

/-- R142: `OFF <- 0`, `CTR <- initial_counter`, a fresh OUT of LEN bytes. -/
def State.startDriver (s : State) : State :=
  State.allocOut s.len { s with off := 0, ctr := s.ctr0.setWidth 33 }

/-- R142: the XOR step, `OUT[OFF + i] <- DATA[OFF + i] xor KS[i]` for `i < n`. -/
def State.xorStep (n : Nat) (s : State) : Result :=
  match s.mem.read .data s.off n, s.mem.read .ks 0 n with
  | some d, some k => s.writeOut s.off (xorBytes d k)
  | _, _ => .fault .bufferAccess

/-- R142: `OFF <- OFF + n`, `CTR <- CTR + 1`, also after a partial block (C3). Under the `eager` policy the overflow
test sits here (R145); under `lazy`, the spec's choice, it does not. -/
def State.advanceDriver (n : Nat) (s : State) : State :=
  let s := { s with off := s.off + n, ctr := s.ctr + 1 }
  match s.params.overflowPolicy with
  | .lazy => s
  | .eager => if counterPast s.ctr then raiseFailure .counterOverflow s else s

/-- R142: one iteration of the loop. A block with a counter above `0xFFFFFFFF` is never generated (R145). -/
def State.driverBlock (s : State) : Result :=
  if counterPast s.ctr then .next (raiseFailure .counterOverflow s)
  else
    let n := min 64 (s.len - s.off)
    thenRun (s.runBlockFromBuffers (s.ctr.setWidth 32)) fun s =>
      thenRun (s.xorStep n) fun s => .next (s.advanceDriver n)

/-- R142: `while OFF < LEN`, at most `n` iterations. -/
def driverLoop : Nat → State → Result
  | 0, s => .next s
  | n + 1, s => if s.off < s.len then thenRun s.driverBlock (driverLoop n) else .next s

/-- R146: `NB = ceil(LEN / 64)`. -/
def numBlocks (len : Nat) : Nat := (len + 63) / 64

/-- TRANSFORM: LEN above MAX_LEN is refused (U4); then the length check (R141), whatever LEN is; then the loop. -/
def execTransform (data key nonce : List Byte) (initialCounter : Word) (s : State) : Result :=
  if s.params.maxLen < data.length then .refused .lengthAboveMax
  else
    let s := (s.accept.latchKeyNonce key nonce initialCounter).latchData data
    if s.lengthsValid then
      thenRun (driverLoop (numBlocks s.len) s.startDriver) fun s => .next (respondOk s)
    else .next (raiseFailure .invalidInput s)

end Sys2Proof.Machine
end

