-- ==== Sys2Proof/Machine/Dispatch.lean ====
section
/-! DEFINITION. The meaning of an operation, one arm per constructor (30_encoding R79). -/

namespace Sys2Proof.Machine

def exec (i : Instr) (s : State) : Host.Outcome State Fault Refusal :=
  match i with
  | .qr x pa pb pc pd => Sys2Proof.Machine.execQr x pa pb pc pd s
  | .block key counter nonce => Sys2Proof.Machine.execBlock key counter nonce s
  | .transform data key nonce initialCounter => Sys2Proof.Machine.execTransform data key nonce initialCounter s
  | .selftest => Sys2Proof.Machine.execSelftest s

end Sys2Proof.Machine
end

