-- ==== Sys2Proof/Machine/Serve.lean ====
section
/-! DEFINITION. Serving one request (30_encoding R78): decode it, then execute the operation or answer that it is no
frame. -/

namespace Sys2Proof.Machine

/-- R78: every byte string gets exactly one response (but for what the spec says to refuse). -/
def serve (req : List Byte) (s : State) : Result :=
  match decode req with
  | .ok i => exec i s
  | .error _ => .next (rejectFrame s)

/-- One step of an instance. A busy instance takes no request (R198, U3); an idle one without a request waits; an idle
one with a request executes it from start to end (R13, R54). -/
def stepCore (s : State) : Result :=
  if s.busy then .refused .busyInstance
  else
    match s.req with
    | none => .next s
    | some req => serve req s

/-- The request of `tableRequest` handed to an idle instance. -/
def placeRequest (s : State) (nbits w : Nat) : State :=
  { s with busy := false, req := some (tableRequest nbits w) }

end Sys2Proof.Machine
end

