-- ==== Sys2Proof/Machine/Step.lean ====
section
/-! DEFINITION. The step of the machine: one step is one operation, from request to response (00_scope R13, R54, D1). -/

namespace Sys2Proof.Machine

/-- One step: see `stepCore`. -/
def step (s : State) : Host.Outcome State Fault Refusal := stepCore s

/-- `s` with the request of the table's word handed over, so that the next step executes exactly it. -/
def State.withFetchWord (s : State) (nbits w : Nat) : State := placeRequest s nbits w

end Sys2Proof.Machine
end

