-- ==== Sys2Proof/Machine/HostPort.lean ====
section
/-! DEFINITION. The host's moves (60_exceptions R185): submit a request, take the response, reset; and whole
interactions. They are functions on the state beside `step`, since no operation of the CORE performs them. -/

namespace Sys2Proof.Machine

/-- R185, R198: hand a request to the CORE. The host has no such move before it has the response of the previous
request (U3): refused. -/
def hostSubmit (req : List Byte) (s : State) : Result :=
  if s.busy || s.req.isSome || s.rsp.isSome then .refused .busyInstance
  else .next { s with req := some req }

/-- R54: the complete response, or none yet. -/
def hostTakeResponse (s : State) : Option (List Byte) × State := (s.rsp, { s with rsp := none })

/-- R190, R191: reset at any time. An operation in progress is abandoned without a response. Every register is
unspecified afterwards (R32): they are those of `left`, any state at all, which the caller of this function may choose
freely. The open parameters are the machine's and stay. -/
def hostReset (left s : State) : State :=
  { left with busy := false, req := none, rsp := none, params := s.params }

/-- One interaction: submit, let the CORE run, take the response. -/
def transact (req : List Byte) (s : State) : Host.Outcome (Option (List Byte) × State) Fault Refusal :=
  match hostSubmit req s with
  | .next s1 =>
    match step s1 with
    | .next s2 => .next (hostTakeResponse s2)
    | .fault e => .fault e
    | .refused e => .refused e
  | .fault e => .fault e
  | .refused e => .refused e

/-- What the host gets back from one interaction. -/
def responseOf (r : Host.Outcome (Option (List Byte) × State) Fault Refusal) :
    Host.Outcome (Option (List Byte)) Fault Refusal :=
  match r with
  | .next p => .next p.1
  | .fault e => .fault e
  | .refused e => .refused e

/-- A sequence of interactions, each after the response of the one before (R198); the responses in order. -/
def runRequests : List (List Byte) → State → Host.Outcome (List (Option (List Byte)) × State) Fault Refusal
  | [], s => .next ([], s)
  | req :: reqs, s =>
    match transact req s with
    | .next (r, s1) =>
      match runRequests reqs s1 with
      | .next (rs, s2) => .next (r :: rs, s2)
      | .fault e => .fault e
      | .refused e => .refused e
    | .fault e => .fault e
    | .refused e => .refused e

end Sys2Proof.Machine
end

