-- ==== Sys2Proof/Machine/Asm.lean ====
section
/-! DEFINITION. The textual form of operations (30_encoding R87), the pseudo-operations ENCRYPT and DECRYPT (R88), and
programs that name results. A notation of the spec for the host's side; the CORE sees request frames only. -/

namespace Sys2Proof.Machine

/-- A byte-string operand: a literal, or a result named by an earlier line. -/
inductive BytesOperand where
  | lit (b : List Byte)
  | named (n : List Char)
deriving DecidableEq, Repr

/-- The operand `x` of QR: sixteen words, or a result named by an earlier line. -/
inductive StateOperand where
  | words (x : Vector Word 16)
  | named (n : List Char)
deriving DecidableEq, Repr

/-- R87, R88: one line without its result name. -/
inductive AsmOp where
  | qr (x : StateOperand) (pa pb pc pd : Pos)
  | block (key : BytesOperand) (counter : Word) (nonce : BytesOperand)
  | transform (data key nonce : BytesOperand) (initialCounter : Word)
  | encrypt (data key nonce : BytesOperand) (initialCounter : Word)
  | decrypt (data key nonce : BytesOperand) (initialCounter : Word)
  | selftest
deriving DecidableEq, Repr

/-- R87: one line, with `-> name` where the result is named. -/
structure AsmLine where
  op : AsmOp
  dest : Option (List Char)
deriving DecidableEq, Repr

/-- Named results: the payloads of earlier lines that ended with OK. -/
abbrev Names := List (List Char × List Byte)

/-- The bytes of a byte-string operand. -/
def BytesOperand.resolve (env : Names) : BytesOperand → Option (List Byte)
  | .lit b => some b
  | .named n => env.lookup n

/-- The state operand of QR; a named result is read as R72 lays a state out. -/
def StateOperand.resolve (env : Names) : StateOperand → Option (Vector Word 16)
  | .words x => some x
  | .named n =>
    match env.lookup n with
    | some b => (exactBytes 64 b).map wordsOfBytes
    | none => none

/-- TRANSFORM with resolved operands, for its three spellings. -/
def assembleTransform (env : Names) (data key nonce : BytesOperand) (initialCounter : Word) : Option Instr :=
  match data.resolve env, key.resolve env, nonce.resolve env with
  | some d, some k, some n => some (.transform d k n initialCounter)
  | _, _, _ => none

/-- The operation a line stands for. R88: ENCRYPT and DECRYPT are exactly TRANSFORM. -/
def AsmOp.assemble (env : Names) : AsmOp → Option Instr
  | .qr x pa pb pc pd => (x.resolve env).map fun x => .qr x pa pb pc pd
  | .block key counter nonce =>
    match key.resolve env, nonce.resolve env with
    | some k, some n => some (.block k counter n)
    | _, _ => none
  | .transform data key nonce c => assembleTransform env data key nonce c
  | .encrypt data key nonce c => assembleTransform env data key nonce c
  | .decrypt data key nonce c => assembleTransform env data key nonce c
  | .selftest => some .selftest

/-- The names after a line whose response is `r`: only a result that exists gets its name.
DESIGN CHOICE (unsafe, log entry 20): R87 does not say what a name given a second time means. Here the newest result that
ended with OK hides the older one, and a later line with that name that fails leaves the older result in force. -/
def nameResult (dest : Option (List Char)) (r : Option (List Byte)) (env : Names) : Names :=
  match dest, r with
  | some n, some (code :: payload) => if code = Status.ok.code then (n, payload) :: env else env
  | _, _ => env

/-- Run a program line by line from a state, each line one interaction of the host.
DESIGN CHOICE (safe, log entry 20): R87 does not say what a program does whose line uses a name without a result, or a
result that is no state where QR needs one; here, as where a line is refused, the program has no meaning (`none`). -/
def runAsm : List AsmLine → Names → State → Option (Names × State)
  | [], env, s => some (env, s)
  | l :: ls, env, s =>
    match l.op.assemble env with
    | none => none
    | some i =>
      match transact (encode i) s with
      | .next (r, s1) => runAsm ls (nameResult l.dest r env) s1
      | _ => none

/-! The text of one line. -/

/-- The tokens of a line. -/
inductive Token where
  | ident (n : List Char)
  | num (v : Nat)
  | bytes (b : List Byte)
  | lbrack | rbrack | comma | arrow
deriving DecidableEq, Repr

/-- What the reader of characters is inside of; what it has read of it is in reverse. -/
inductive LexMode where
  | blank
  | word (rev : List Char)
  | hex (rev : List Byte) (half : Option Nat)
  | ascii (rev : List Byte)
  | dash
  | comment
deriving DecidableEq, Repr

/-- The value of a hexadecimal digit. -/
def hexDigit (c : Char) : Option Nat :=
  if '0' ≤ c ∧ c ≤ '9' then some (c.toNat - '0'.toNat)
  else if 'a' ≤ c ∧ c ≤ 'f' then some (c.toNat - 'a'.toNat + 10)
  else if 'A' ≤ c ∧ c ≤ 'F' then some (c.toNat - 'A'.toNat + 10)
  else none

/-- The value of a decimal digit. -/
def decDigit (c : Char) : Option Nat :=
  if '0' ≤ c ∧ c ≤ '9' then some (c.toNat - '0'.toNat) else none

/-- The number a string of digits stands for in base `b`. -/
def digits (b : Nat) (digit : Char → Option Nat) (v : Nat) : List Char → Option Nat
  | [] => some v
  | c :: cs =>
    match digit c with
    | some d => digits b digit (b * v + d) cs
    | none => none

/-- R87: a number is decimal, or `0x` and hexadecimal. -/
def number : List Char → Option Nat
  | [] => none
  | ['0', 'x'] => none
  | '0' :: 'x' :: cs => digits 16 hexDigit 0 cs
  | cs => digits 10 decDigit 0 cs

/-- A word of letters, digits and underscores: a number if it begins with a digit, else a name. -/
def wordToken (w : List Char) : Option Token :=
  match w with
  | [] => none
  | c :: _ => if (decDigit c).isSome then (number w).map .num else some (.ident w)

/-- Characters of words. -/
def isWordChar (c : Char) : Bool := c.isAlphanum || c == '_'

/-- The tokens so far (in reverse) with the word just ended, if there is one. -/
def endWord (toks : List Token) : LexMode → Option (List Token)
  | .word rev => (wordToken rev.reverse).map (· :: toks)
  | .blank => some toks
  | _ => none

/-- A character outside strings and words. -/
def lexSeparator (toks : List Token) (c : Char) : Option (LexMode × List Token) :=
  if c = ' ' ∨ c = '\t' then some (.blank, toks)
  else if c = ',' then some (.blank, .comma :: toks)
  else if c = '[' then some (.blank, .lbrack :: toks)
  else if c = ']' then some (.blank, .rbrack :: toks)
  else if c = '-' then some (.dash, toks)
  else if c = ';' then some (.comment, toks)
  else none

/-- One character inside `h"..."`: hexadecimal byte pairs, spaces ignored. -/
def lexHex (toks : List Token) (rev : List Byte) (half : Option Nat) (c : Char) : Option (LexMode × List Token) :=
  if c = ' ' then some (.hex rev half, toks)
  else if c = '"' then
    match half with
    | none => some (.blank, .bytes rev.reverse :: toks)
    | some _ => none
  else
    match hexDigit c, half with
    | some d, none => some (.hex rev (some d), toks)
    | some d, some h => some (.hex (BitVec.ofNat 8 (16 * h + d) :: rev) none, toks)
    | none, _ => none

/-- One character of a line. -/
def lexChar (st : LexMode × List Token) (c : Char) : Option (LexMode × List Token) :=
  match st.1 with
  | .comment => some st
  | .hex rev half => lexHex st.2 rev half c
  | .ascii rev =>
    if c = '"' then some (.blank, .bytes rev.reverse :: st.2)
    else if c.toNat < 128 then some (.ascii (BitVec.ofNat 8 c.toNat :: rev), st.2)
    else none
  | .dash => if c = '>' then some (.blank, .arrow :: st.2) else none
  | .word rev =>
    if isWordChar c then some (.word (c :: rev), st.2)
    else if c = '"' then (if rev = ['h'] then some (.hex [] none, st.2) else none)
    else (endWord st.2 (.word rev)).bind fun toks => lexSeparator toks c
  | .blank =>
    if isWordChar c then some (.word [c], st.2)
    else if c = '"' then some (.ascii [], st.2)
    else lexSeparator st.2 c

/-- The tokens of the rest of a line. -/
def lexFrom (st : LexMode × List Token) : List Char → Option (List Token)
  | [] =>
    match st.1 with
    | .comment => some st.2.reverse
    | m => (endWord st.2 m).map List.reverse
  | c :: cs =>
    match lexChar st c with
    | some st' => lexFrom st' cs
    | none => none

/-- The tokens of a line. -/
def tokens (line : List Char) : Option (List Token) := lexFrom (.blank, []) line

/-- Split `-> name` off the end of a line. -/
def splitDest : List Token → List Token × Option (List Char)
  | [] => ([], none)
  | [.arrow, .ident n] => ([], some n)
  | t :: ts => (t :: (splitDest ts).1, (splitDest ts).2)

/-- A byte-string operand. -/
def bytesOperand : Token → Option BytesOperand
  | .bytes b => some (.lit b)
  | .ident n => some (.named n)
  | _ => none

/-- A number of 32 bits. -/
def wordOperand : Token → Option Word
  | .num v => if v < 2 ^ 32 then some (BitVec.ofNat 32 v) else none
  | _ => none

/-- A position 0..15. -/
def posOperand : Token → Option Pos
  | .num v => if h : v < 16 then some ⟨v, h⟩ else none
  | _ => none

/-- The words up to the closing bracket, and the tokens after it. -/
def bracketWords : List Token → Option (List Word × List Token)
  | [] => none
  | .rbrack :: ts => some ([], ts)
  | t :: ts =>
    match wordOperand t, bracketWords ts with
    | some w, some (ws, rest) => some (w :: ws, rest)
    | _, _ => none

/-- The operand `x` of QR and the tokens after it. -/
def stateOperand : List Token → Option (StateOperand × List Token)
  | .ident n :: ts => some (.named n, ts)
  | .lbrack :: ts =>
    match bracketWords ts with
    | some (ws, rest) => if h : ws.length = 16 then some (.words ⟨ws.toArray, by simpa using h⟩, rest) else none
    | none => none
  | _ => none

/-- The operands of QR. -/
def parseQr (ts : List Token) : Option AsmOp :=
  match stateOperand ts with
  | some (x, [.comma, a, .comma, b, .comma, c, .comma, d]) =>
    match posOperand a, posOperand b, posOperand c, posOperand d with
    | some pa, some pb, some pc, some pd => some (.qr x pa pb pc pd)
    | _, _, _, _ => none
  | _ => none

/-- The operands of BLOCK. -/
def parseBlock : List Token → Option AsmOp
  | [k, .comma, c, .comma, n] =>
    match bytesOperand k, wordOperand c, bytesOperand n with
    | some key, some counter, some nonce => some (.block key counter nonce)
    | _, _, _ => none
  | _ => none

/-- The operands of TRANSFORM, ENCRYPT or DECRYPT, in the order of the source's signature. -/
def parseTransform (mk : BytesOperand → BytesOperand → BytesOperand → Word → AsmOp) : List Token → Option AsmOp
  | [d, .comma, k, .comma, n, .comma, c] =>
    match bytesOperand d, bytesOperand k, bytesOperand n, wordOperand c with
    | some data, some key, some nonce, some counter => some (mk data key nonce counter)
    | _, _, _, _ => none
  | _ => none

/-- SELFTEST has no operands. -/
def parseSelftest : List Token → Option AsmOp
  | [] => some .selftest
  | _ => none

/-- The operation of a line whose first word is `m`. -/
def parseOp (m : List Char) (ts : List Token) : Option AsmOp :=
  if m = ['Q', 'R'] then parseQr ts
  else if m = ['B', 'L', 'O', 'C', 'K'] then parseBlock ts
  else if m = ['T', 'R', 'A', 'N', 'S', 'F', 'O', 'R', 'M'] then parseTransform .transform ts
  else if m = ['E', 'N', 'C', 'R', 'Y', 'P', 'T'] then parseTransform .encrypt ts
  else if m = ['D', 'E', 'C', 'R', 'Y', 'P', 'T'] then parseTransform .decrypt ts
  else if m = ['S', 'E', 'L', 'F', 'T', 'E', 'S', 'T'] then parseSelftest ts
  else none

/-- R87: one line of text. `some none` is a line without an operation; `none` is no line of the syntax. -/
def parseLine (line : List Char) : Option (Option AsmLine) :=
  match tokens line with
  | none => none
  | some [] => some none
  | some (.ident m :: ts) =>
    match parseOp m (splitDest ts).1 with
    | some op => some (some ⟨op, (splitDest ts).2⟩)
    | none => none
  | some _ => none

end Sys2Proof.Machine
end

