-- ==== Sys2Proof/Machine/Instances.lean ====
section
/-! DEFINITION. A platform of NUM_INSTANCES independent CORE instances (60_exceptions R181, 20_memory R59, R60, U13). The
open parameters of R8 are the platform's, one value for all its instances (R30: they are not state); everything else an
instance has for itself, and the instances share nothing. -/

namespace Sys2Proof.Machine

/-- `n` instances under one value of the open parameters; one of them moves at a time. -/
structure Platform (n : Nat) where
  /-- the open parameters of R8, for all instances -/
  params : Params
  /-- the states of the instances; their own `params` fields are not read (see `Platform.core`) -/
  cores : Vector State n
deriving DecidableEq, Repr

/-- Instance `k` as it runs: its own registers, buffers and ports, the platform's parameters. -/
def Platform.core {n : Nat} (p : Platform n) (k : Fin n) : State := { p.cores[k] with params := p.params }

/-- The platform with instance `k` in the state `s`; the other instances keep theirs. -/
def Platform.withCore {n : Nat} (p : Platform n) (k : Fin n) (s : State) : Platform n :=
  { p with cores := p.cores.set k s }

/-- All instances after reset (R190); no start-up protocol (R181, R194). -/
def Platform.reset (params : Params) (n : Nat) : Platform n :=
  { params := params, cores := Vector.replicate n State.reset }

/-- Instance `k` makes the move `f`. -/
def Platform.act {n : Nat} (k : Fin n) (f : State → Result) (p : Platform n) :
    Host.Outcome (Platform n) Fault Refusal :=
  match f (p.core k) with
  | .next s => .next (p.withCore k s)
  | .fault e => .fault e
  | .refused e => .refused e

/-- Instance `k` takes a step. -/
def stepInstance {n : Nat} (k : Fin n) (p : Platform n) : Host.Outcome (Platform n) Fault Refusal :=
  p.act k step

/-- R185: the host submits a request to instance `k`. -/
def submitInstance {n : Nat} (k : Fin n) (req : List Byte) (p : Platform n) :
    Host.Outcome (Platform n) Fault Refusal :=
  p.act k (hostSubmit req)

/-- R185: the host takes the response of instance `k`. -/
def takeResponseInstance {n : Nat} (k : Fin n) (p : Platform n) : Option (List Byte) × Platform n :=
  ((hostTakeResponse (p.core k)).1, p.withCore k (hostTakeResponse (p.core k)).2)

/-- R190, R191: reset of instance `k`, which leaves its registers as in `left`; the others go on. -/
def resetInstance {n : Nat} (k : Fin n) (left : State) (p : Platform n) : Platform n :=
  p.withCore k (hostReset left (p.core k))

/-- One interaction of the host with instance `k`: submit, let it run, take the response. -/
def transactInstance {n : Nat} (k : Fin n) (req : List Byte) (p : Platform n) :
    Host.Outcome (Option (List Byte) × Platform n) Fault Refusal :=
  match transact req (p.core k) with
  | .next r => .next (r.1, p.withCore k r.2)
  | .fault e => .fault e
  | .refused e => .refused e

/-- What the host gets back from an interaction with an instance. -/
def responseOfInstance {n : Nat} (r : Host.Outcome (Option (List Byte) × Platform n) Fault Refusal) :
    Host.Outcome (Option (List Byte)) Fault Refusal :=
  match r with
  | .next a => .next a.1
  | .fault e => .fault e
  | .refused e => .refused e

end Sys2Proof.Machine
end

