-- ==== Sys2Proof/Machine/Work.lean ====
section
/-! DEFINITION. The work of an operation as the counts the spec offers for a step measure (70_reset_and_hazards R201,
42_stream R153); no rule depends on time. -/

namespace Sys2Proof.Machine

/-- Counts of quarter-rounds, feed-forward additions and byte XORs. -/
structure Work where
  quarterRounds : Nat
  additions : Nat
  byteXors : Nat
deriving DecidableEq, Repr

/-- R201: the work of an operation that ends with OK; it depends on LEN only (R202). -/
def workOf : Instr → Work
  | .qr _ _ _ _ _ => ⟨1, 0, 0⟩
  | .block _ _ _ => ⟨80, 16, 0⟩
  | .transform data _ _ _ => ⟨80 * numBlocks data.length, 16 * numBlocks data.length, data.length⟩
  | .selftest => ⟨80, 16, 0⟩

end Sys2Proof.Machine
end

