-- ==== Sys2Proof/Safety.lean ====
section
/-! DEFINITION. The terms claims are made in: what the host sees of a step, and what holds of every state between
operations. -/

namespace Sys2Proof.Machine

/-- R76, R77: a pending response begins with the code of STATUS, and is that one byte when the status is a failure. -/
def responseMatches (s : State) : Bool :=
  match s.rsp with
  | none => true
  | some r =>
    match s.status with
    | .ok => r.head? == some Status.ok.code
    | .invalidInput => r == [Status.invalidInput.code]
    | .counterOverflow => r == [Status.counterOverflow.code]

/-- What holds of every state between operations: the CORE is idle (R174, R190), each buffer has the size its latch says
(R27, R28), and the response, if one is pending, has the form of R76. -/
abbrev Inv (s : State) : Prop := s.busy = false ∧ Memory.wf s = true ∧ responseMatches s = true

/-- All the host sees of a step: the response, or that the machine stopped and why (R54, R185). -/
def observe (r : Result) : Host.Outcome (Option (List Byte)) Fault Refusal :=
  match r with
  | .next s => .next s.rsp
  | .fault e => .fault e
  | .refused e => .refused e

/-- R146: with valid lengths and the `lazy` policy TRANSFORM of `len` bytes from counter `c` ends with OK. -/
def streamFits (c : Word) (len : Nat) : Bool :=
  numBlocks len == 0 || decide (c.toNat + numBlocks len ≤ 2 ^ 32)

/-- R145: the boundary case the two policies differ in, `NB >= 1` and `initial_counter + NB = 2^32`. -/
def onBoundary (c : Word) (len : Nat) : Bool :=
  decide (1 ≤ numBlocks len) && decide (c.toNat + numBlocks len = 2 ^ 32)

/-- R146: keystream byte `i` of the stream that starts at counter `c`; block `i / 64`, byte `i mod 64` of it. -/
def keystreamByte (key : Vector Byte 32) (c : Word) (nonce : Vector Byte 12) (i : Nat) : Byte :=
  (blockFn key (c + BitVec.ofNat 32 (i / 64)) nonce)[i % 64]'(Nat.mod_lt i (by decide))

/-- R146: the output of a TRANSFORM that ends with OK, byte by byte. -/
def streamOutput (key : Vector Byte 32) (c : Word) (nonce : Vector Byte 12) (data : List Byte) : List Byte :=
  data.mapIdx fun i d => d ^^^ keystreamByte key c nonce i

end Sys2Proof.Machine
end

