-- ==== Sys2Proof/Certificates/Slice0/Obligations.lean ====
section
/-! DEFINITION. The statements for the provers. Each docstring names the rule of spec/ that it formalises, or says that it
rests on a choice of the model and on which log entry. -/

open Sys2Proof Sys2Proof.Machine

/-! Words, bytes, the quarter-round. -/

/-- R100: addition modulo 2^32, its corner cases, commutative and associative, the same value when the operands are read as
signed numbers; the rule's example. -/
def Obligations.Add32IsModular : Prop :=
  ∀ a b c : Word, (add32 a b).toNat = (a.toNat + b.toNat) % 2 ^ 32 ∧
    add32 0xFFFFFFFF 0x00000001 = 0 ∧ add32 0x80000000 0x80000000 = 0 ∧ add32 a 0 = a ∧
    add32 a b = add32 b a ∧ add32 (add32 a b) c = add32 a (add32 b c) ∧
    add32 a b = BitVec.ofInt 32 (a.toInt + b.toInt) ∧ add32 0x77777777 0x01234567 = 0x789abcde

/-- R101: bit `i` is 1 exactly when bits `i` of the operands differ; the corner cases and the example; the byte form XOR8,
which the stream driver uses, is the same on 8 bits. -/
def Obligations.Xor32IsBitwise : Prop :=
  ∀ a b : Word, (∀ i, i < 32 → (xor32 a b).getLsbD i = (a.getLsbD i != b.getLsbD i)) ∧
    xor32 a a = 0 ∧ xor32 a 0 = a ∧ xor32 (xor32 a b) b = a ∧ xor32 0x01020304 0x789abcde = 0x7998bfda ∧
    ∀ (p q : List Byte) (j i : Nat), j < p.length → j < q.length → i < 8 →
      ((xorBytes p q).getD j 0).getLsbD i = ((p.getD j 0).getLsbD i != (q.getD j 0).getLsbD i)

/-- R102: bit `i` moves to bit `(i + n) mod 32`, for 1 <= n <= 31; the corner cases. -/
def Obligations.Rotl32MovesBits : Prop :=
  ∀ (a : Word) (n : Nat), 1 ≤ n → n ≤ 31 →
    (∀ i, i < 32 → (rotl32 a n).getLsbD ((i + n) % 32) = a.getLsbD i) ∧
    (rotl32 a n).toNat = (a.toNat <<< n) % 2 ^ 32 ||| a.toNat >>> (32 - n) ∧
    rotl32 0 n = 0 ∧ rotl32 0xFFFFFFFF n = 0xFFFFFFFF

/-- R11: LE32 is the weighted sum of its bytes, BYTES32 takes the four byte slices, and they are inverse to each
other; LEW of a byte string is LE32 at offsets 4k to 4k + 3. -/
def Obligations.LittleEndianRoundTrip : Prop :=
  (∀ b0 b1 b2 b3 : Byte,
    (le32 b0 b1 b2 b3).toNat = b0.toNat + 2 ^ 8 * b1.toNat + 2 ^ 16 * b2.toNat + 2 ^ 24 * b3.toNat ∧
      bytes32 (le32 b0 b1 b2 b3) = #v[b0, b1, b2, b3]) ∧
  (∀ w : Word, le32 (bytes32 w)[0] (bytes32 w)[1] (bytes32 w)[2] (bytes32 w)[3] = w ∧
    ∀ k : Fin 4, ((bytes32 w)[k]).toNat = w.toNat / 2 ^ (8 * k.val) % 2 ^ 8) ∧
  (∀ (n : Nat) (s : Vector Byte n) (k : Nat) (h : 4 * k + 3 < n),
    (lew s k h).toNat =
      s[4 * k].toNat + 2 ^ 8 * s[4 * k + 1].toNat + 2 ^ 16 * s[4 * k + 2].toNat + 2 ^ 24 * s[4 * k + 3].toNat)

/-- R103: the twelve assignments, written with the library's own addition, exclusive or and rotation; the corner cases
and the example. -/
def Obligations.Qr4TwelveAssignments : Prop :=
  qr4 (0, 0, 0, 0) = (0, 0, 0, 0) ∧
  qr4 (0xFFFFFFFF, 0xFFFFFFFF, 0xFFFFFFFF, 0xFFFFFFFF) = (0xf0000ffd, 0x88790878, 0x0110fdef, 0x010ffdf0) ∧
  qr4 (0x11111111, 0x01020304, 0x9b8d6f43, 0x01234567) = (0xea2a92f4, 0xcb1cf8ce, 0x4581472e, 0x5881c4bb) ∧
  ∀ a b c d : Word,
    let a1 := a + b
    let d1 := (d ^^^ a1).rotateLeft 16
    let c1 := c + d1
    let b1 := (b ^^^ c1).rotateLeft 12
    let a2 := a1 + b1
    let d2 := (d1 ^^^ a2).rotateLeft 8
    let c2 := c1 + d2
    let b2 := (b1 ^^^ c2).rotateLeft 7
    qr4 (a, b, c, d) = (a2, b2, c2, d2)

/-- R107: QR4 is a bijection on quadruples of words; so are QRAT with distinct positions and the round function. -/
def Obligations.Qr4IsBijective : Prop :=
  Function.Bijective qr4 ∧
    (∀ i j k l : Pos, [i, j, k, l].Nodup → Function.Bijective fun x => qrAt x i j k l) ∧
    Function.Bijective rounds

/-- R104: the four words at distinct positions become QR4 of them, in that order; every other word is unchanged. -/
def Obligations.QratChangesItsFourWords : Prop :=
  ∀ (x : Vector Word 16) (i j k l : Pos), [i, j, k, l].Nodup →
    ((qrAt x i j k l)[i], (qrAt x i j k l)[j], (qrAt x i j k l)[k], (qrAt x i j k l)[l]) =
        qr4 (x[i], x[j], x[k], x[l]) ∧
      ∀ m : Pos, m ≠ i → m ≠ j → m ≠ k → m ≠ l → (qrAt x i j k l)[m] = x[m]

/-! QR. -/

/-- R105: with pairwise distinct positions QR ends with OK; the result is `x` but at the four positions, where it is
QR4 of their words. (X itself is dead once the response is there, R29; the result is stated of the response.) -/
def Obligations.QrAnswersTheMixedState : Prop :=
  ∀ (x : Vector Word 16) (pa pb pc pd : Pos) (s : State), [pa, pb, pc, pd].Nodup →
    ∃ (r : Vector Word 16) (t : State), exec (.qr x pa pb pc pd) s = .next t ∧
      t.status = .ok ∧ t.busy = false ∧ t.rsp = some (0x00 :: (bytesOfWords r).toList) ∧
      (r[pa], r[pb], r[pc], r[pd]) = qr4 (x[pa], x[pb], x[pc], x[pd]) ∧
      ∀ i : Pos, i ≠ pa → i ≠ pb → i ≠ pc → i ≠ pd → r[i] = x[i]

/-- R106: QR with two or more equal positions is refused, in every state. -/
def Obligations.QrRepeatedPositionsRefused : Prop :=
  ∀ (x : Vector Word 16) (pa pb pc pd : Pos) (s : State), ¬ [pa, pb, pc, pd].Nodup →
    exec (.qr x pa pb pc pd) s = .refused .repeatedPositions

/-- The frame of QR. R105: `S`, `KS`, `CTR`, `OFF` are not used. That registers an operation does not use keep their
values from operation to operation is the model's choice (log entry 7). -/
def Obligations.QrFrame : Prop :=
  ∀ (x : Vector Word 16) (pa pb pc pd : Pos) (s t : State), exec (.qr x pa pb pc pd) s = .next t →
    t.s = s.s ∧ t.dr = s.dr ∧ t.qi = s.qi ∧ t.ctr = s.ctr ∧ t.off = s.off ∧
      t.ctr0 = s.ctr0 ∧ t.klen = s.klen ∧ t.nlen = s.nlen ∧ t.len = s.len ∧ t.params = s.params ∧
      (t.pa, t.pb, t.pc, t.pd) = (pa, pb, pc, pd) ∧ t.req = none ∧
      (∀ b off n, t.mem.read b off n = s.mem.read b off n) ∧
      t.x = qrAt x pa pb pc pd ∧ t.mem.outSize = 64 ∧ t.mem.out = (bytesOfWords t.x).toList

/-! The block function and BLOCK. -/

/-- R120 with R80 to R82: what INIT puts into each word of S. -/
def Obligations.InitLaysOutTheState : Prop :=
  ∀ (key : Vector Byte 32) (ctr : Word) (nonce : Vector Byte 12) (s : State),
    let u := (s.initBlock key ctr nonce).s
    u[0] = 0x61707865 ∧ u[1] = 0x3320646e ∧ u[2] = 0x79622d32 ∧ u[3] = 0x6b206574 ∧ u[12] = ctr ∧
      (∀ k : Fin 8, (u[4 + k.val]'(by omega)).toNat =
        (key[4 * k.val]'(by omega)).toNat + 2 ^ 8 * (key[4 * k.val + 1]'(by omega)).toNat +
          2 ^ 16 * (key[4 * k.val + 2]'(by omega)).toNat + 2 ^ 24 * (key[4 * k.val + 3]'(by omega)).toNat) ∧
      (∀ k : Fin 3, (u[13 + k.val]'(by omega)).toNat =
        (nonce[4 * k.val]'(by omega)).toNat + 2 ^ 8 * (nonce[4 * k.val + 1]'(by omega)).toNat +
          2 ^ 16 * (nonce[4 * k.val + 2]'(by omega)).toNat + 2 ^ 24 * (nonce[4 * k.val + 3]'(by omega)).toNat)

/-- R122: the eight groups in order; each has four distinct positions; the four columns cover all sixteen words, the
four diagonals too; the columns may be done in any order with the same result, and so may the diagonals. -/
def Obligations.ScheduleColumnsAndDiagonals : Prop :=
  let columns := [((0, 4, 8, 12) : Pos × Pos × Pos × Pos), (1, 5, 9, 13), (2, 6, 10, 14), (3, 7, 11, 15)]
  let diagonals := [((0, 5, 10, 15) : Pos × Pos × Pos × Pos), (1, 6, 11, 12), (2, 7, 8, 13), (3, 4, 9, 14)]
  let positions := fun (g : Pos × Pos × Pos × Pos) => [g.1, g.2.1, g.2.2.1, g.2.2.2]
  sched.toList = columns ++ diagonals ∧
    (columns.flatMap positions).Perm (List.finRange 16) ∧ (diagonals.flatMap positions).Perm (List.finRange 16) ∧
    (∀ l : List (Pos × Pos × Pos × Pos), l.Perm columns → ∀ x, l.foldl qrGroup x = columns.foldl qrGroup x) ∧
    (∀ l : List (Pos × Pos × Pos × Pos), l.Perm diagonals → ∀ x, l.foldl qrGroup x = diagonals.foldl qrGroup x) ∧
    ∀ x, doubleRound x = diagonals.foldl qrGroup (columns.foldl qrGroup x)

/-- R124 to R127: ROUNDS is ten double rounds; byte `m` of word `i` of BLOCKFN is bits `8m` to `8m + 7` of the sum, modulo
2^32 and without a carry between words, of word `i` after the rounds and word `i` of the initial state. -/
def Obligations.BlockfnFeedsForwardAndSerialises : Prop :=
  (∀ x, rounds x = doubleRound^[10] x) ∧
  ∀ (key : Vector Byte 32) (ctr : Word) (nonce : Vector Byte 12) (i : Fin 16) (m : Fin 4),
    let s := initWords key ctr nonce
    ((blockFn key ctr nonce)[4 * i.val + m.val]'(by omega)).toNat =
      ((rounds s)[i].toNat + s[i].toNat) % 2 ^ 32 / 2 ^ (8 * m.val) % 2 ^ 8

/-- R131 with R23: the small-step view. After `n` quarter-round steps DR is `n / 8` and QI is `n mod 8`, so that
exactly 80 steps occur before DR is 10; they change X, DR and QI only; the final step then leaves in KS what the
big-step BLOCKFN says. -/
def Obligations.SmallStepAgreesWithBlockfn : Prop :=
  ∀ (key : Vector Byte 32) (ctr : Word) (nonce : Vector Byte 12) (s : State),
    let start := State.startRounds (State.copyToWorking (s.initBlock key ctr nonce))
    (∀ n, n ≤ 80 →
      let u := State.quarterStep^[n] start
      u.dr.val = n / 8 ∧ u.qi.val = n % 8 ∧ u = { start with x := u.x, dr := u.dr, qi := u.qi }) ∧
    (State.quarterStep^[80] start).x = rounds start.s ∧
    (State.finishBlock (State.quarterStep^[80] start)).mem.ks = blockFn key ctr nonce ∧
    (s.runBlock key ctr nonce).mem.ks = blockFn key ctr nonce

/-- R202: the sequencer's course does not depend on any data. -/
def Obligations.ScheduleIndependentOfData : Prop :=
  ∀ (s u : State), s.dr = u.dr → s.qi = u.qi → ∀ n,
    (State.quarterStep^[n] s).dr = (State.quarterStep^[n] u).dr ∧
      (State.quarterStep^[n] s).qi = (State.quarterStep^[n] u).qi

/-- R128: with a key of 32 bytes and a nonce of 12 BLOCK ends with OK and the 64 bytes of BLOCKFN, for every counter,
and from every state. -/
def Obligations.BlockAnswersBlockfn : Prop :=
  ∀ (key : Vector Byte 32) (counter : Word) (nonce : Vector Byte 12) (s : State),
    ∃ t, exec (.block key.toList counter nonce.toList) s = .next t ∧
      t.status = .ok ∧ t.busy = false ∧ t.rsp = some (0x00 :: (blockFn key counter nonce).toList)

/-- R128, R171: with another length BLOCK is `InvalidInput`, before anything is computed and with no output. "Nothing is
computed" is put as X, S, KS, DR, QI and OUT being as before; these are dead registers, which R29 leaves unspecified, and
that they keep their values is the model's choice (log entry 7). STATUS, the idle CORE and the response are the spec's. -/
def Obligations.BlockWrongLengthInvalidInput : Prop :=
  ∀ (key : List Byte) (counter : Word) (nonce : List Byte) (s : State), key.length ≠ 32 ∨ nonce.length ≠ 12 →
    ∃ t, exec (.block key counter nonce) s = .next t ∧
      t.status = .invalidInput ∧ t.busy = false ∧ t.rsp = some [0x01] ∧
      t.x = s.x ∧ t.s = s.s ∧ t.mem.ks = s.mem.ks ∧ t.dr = s.dr ∧ t.qi = s.qi ∧ t.mem.out = s.mem.out

/-- The frame of BLOCK: KEY, NONCE and their latches hold the operands, CTR, OFF, DATA, LEN, the latches of QR and the
open parameters are unchanged. That dead registers keep their values is the model's choice (log entry 7). -/
def Obligations.BlockFrame : Prop :=
  ∀ (key : List Byte) (counter : Word) (nonce : List Byte) (s t : State),
    exec (.block key counter nonce) s = .next t →
    t.ctr = s.ctr ∧ t.off = s.off ∧ t.len = s.len ∧ (t.pa, t.pb, t.pc, t.pd) = (s.pa, s.pb, s.pc, s.pd) ∧
      t.params = s.params ∧ t.req = none ∧
      t.ctr0 = counter ∧ t.klen = key.length ∧ t.nlen = nonce.length ∧ t.mem.key = key ∧ t.mem.nonce = nonce ∧
      ∀ off n, t.mem.read .data off n = s.mem.read .data off n

/-! TRANSFORM. -/

/-- R146: with valid lengths and the spec's `lazy` policy, TRANSFORM ends with OK exactly when NB = 0 or
`initial_counter + NB <= 2^32`, each output byte being the data byte XOR its keystream byte, and else with
`CounterOverflow` and no output. -/
def Obligations.TransformClosedForm : Prop :=
  ∀ (data : List Byte) (key : Vector Byte 32) (nonce : Vector Byte 12) (c : Word) (s : State),
    s.params.overflowPolicy = .lazy → data.length ≤ s.params.maxLen →
    let nb := (data.length + 63) / 64
    (nb = 0 ∨ c.toNat + nb ≤ 2 ^ 32 →
      ∃ t out, exec (.transform data key.toList nonce.toList c) s = .next t ∧
        t.status = .ok ∧ t.busy = false ∧ t.rsp = some (0x00 :: out) ∧ out.length = data.length ∧
        ∀ (i : Nat) (h : i < data.length), c.toNat + i / 64 ≤ 0xFFFFFFFF ∧
          out[i]? = some (data[i] ^^^
            (blockFn key (BitVec.ofNat 32 (c.toNat + i / 64)) nonce)[i % 64]'(Nat.mod_lt i (by decide)))) ∧
    (¬ (nb = 0 ∨ c.toNat + nb ≤ 2 ^ 32) →
      ∃ t, exec (.transform data key.toList nonce.toList c) s = .next t ∧
        t.status = .counterOverflow ∧ t.busy = false ∧ t.rsp = some [0x02])

/-- R145, D8: the alternative `eager` policy differs from `lazy` in the boundary case only, where the last block has
counter `0xFFFFFFFF`: there it fails, and elsewhere the responses are equal. -/
def Obligations.EagerDiffersOnBoundaryOnly : Prop :=
  ∀ (data : List Byte) (key : Vector Byte 32) (nonce : Vector Byte 12) (c : Word) (s e : State),
    s.params.overflowPolicy = .lazy → e.params.overflowPolicy = .eager → e.params.maxLen = s.params.maxLen →
    data.length ≤ s.params.maxLen →
    let nb := (data.length + 63) / 64
    (1 ≤ nb ∧ c.toNat + nb = 2 ^ 32 →
      ∃ t, exec (.transform data key.toList nonce.toList c) e = .next t ∧
        t.status = .counterOverflow ∧ t.busy = false ∧ t.rsp = some [0x02]) ∧
    (¬ (1 ≤ nb ∧ c.toNat + nb = 2 ^ 32) →
      observe (exec (.transform data key.toList nonce.toList c) e) =
        observe (exec (.transform data key.toList nonce.toList c) s))

/-- R141, R175: with a wrong key or nonce length TRANSFORM is `InvalidInput`, whatever the data and the counter are
(so it wins over `CounterOverflow` and over the empty success), and nothing is computed. The data are within MAX_LEN: that
longer data are refused before the lengths are looked at is the model's choice (log entry 13). "Nothing is computed" is put
as X, S, KS, DR, QI, CTR, OFF and OUT being as before; these are dead registers, which R29 leaves unspecified, and that they
keep their values is the model's choice (log entry 7). STATUS, the idle CORE and the response are the spec's. -/
def Obligations.TransformWrongLengthInvalidInput : Prop :=
  ∀ (data key nonce : List Byte) (c : Word) (s : State), key.length ≠ 32 ∨ nonce.length ≠ 12 →
    data.length ≤ s.params.maxLen →
    ∃ t, exec (.transform data key nonce c) s = .next t ∧
      t.status = .invalidInput ∧ t.busy = false ∧ t.rsp = some [0x01] ∧
      t.x = s.x ∧ t.s = s.s ∧ t.mem.ks = s.mem.ks ∧ t.dr = s.dr ∧ t.qi = s.qi ∧
      t.ctr = s.ctr ∧ t.off = s.off ∧ t.mem.out = s.mem.out

/-- U4, D17: data longer than MAX_LEN are refused, whatever the other operands are (the order of this test before the
length check is the model's choice, log entry 13). -/
def Obligations.TransformAboveMaxLenRefused : Prop :=
  ∀ (data key nonce : List Byte) (c : Word) (s : State), s.params.maxLen < data.length →
    exec (.transform data key nonce c) s = .refused .lengthAboveMax

/-- R143: zero-length data with valid key and nonce lengths give the empty result with OK for every counter and either
policy, and no block is generated. "No block is generated" is put as X, S, KS, DR and QI being as before; these are dead
registers, which R29 leaves unspecified, and that they keep their values is the model's choice (log entry 7). STATUS, the
idle CORE and the empty result are the spec's. -/
def Obligations.TransformZeroLength : Prop :=
  ∀ (key : Vector Byte 32) (nonce : Vector Byte 12) (c : Word) (s : State),
    ∃ t, exec (.transform [] key.toList nonce.toList c) s = .next t ∧
      t.status = .ok ∧ t.busy = false ∧ t.rsp = some [0x00] ∧
      t.x = s.x ∧ t.s = s.s ∧ t.mem.ks = s.mem.ks ∧ t.dr = s.dr ∧ t.qi = s.qi

/-- R148: TRANSFORM is its own inverse, whatever the lengths, the counter and the policy, when the inner operation ends
with OK; when it ends with `CounterOverflow`, so does every TRANSFORM of as many bytes with the same operands. -/
def Obligations.TransformInvolution : Prop :=
  ∀ (data key nonce : List Byte) (c : Word) (s t : State), exec (.transform data key nonce c) s = .next t →
    (∀ out, t.rsp = some (0x00 :: out) → ∀ s' : State, s'.params = s.params →
      ∃ t', exec (.transform out key nonce c) s' = .next t' ∧ t'.status = .ok ∧ t'.rsp = some (0x00 :: data)) ∧
    (t.rsp = some [0x02] → ∀ (data' : List Byte) (s' : State), data'.length = data.length → s'.params = s.params →
      ∃ t', exec (.transform data' key nonce c) s' = .next t' ∧ t'.rsp = some [0x02])

/-- R149: an output has the length of the data. -/
def Obligations.TransformPreservesLength : Prop :=
  ∀ (data key nonce : List Byte) (c : Word) (s t : State) (out : List Byte),
    exec (.transform data key nonce c) s = .next t → t.rsp = some (0x00 :: out) → out.length = data.length

/-- R150: a TRANSFORM that ends with OK may be cut after a whole number of blocks: both pieces end with OK, the second
one starting at the counter advanced by the blocks of the first, and the outputs join. Conversely, where both pieces end
with OK and that counter has not wrapped, the TRANSFORM of the joined data (if it is within MAX_LEN) ends with OK and has
the joined output. -/
def Obligations.TransformSeeksByBlocks : Prop :=
  ∀ (a b key nonce : List Byte) (c : Word) (s : State), a.length % 64 = 0 →
    (∀ (t : State) (out : List Byte),
      exec (.transform (a ++ b) key nonce c) s = .next t → t.rsp = some (0x00 :: out) →
      ∃ (ta tb : State) (outA outB : List Byte),
        exec (.transform a key nonce c) s = .next ta ∧ ta.rsp = some (0x00 :: outA) ∧
        exec (.transform b key nonce (c + BitVec.ofNat 32 (a.length / 64))) s = .next tb ∧
        tb.rsp = some (0x00 :: outB) ∧ out = outA ++ outB) ∧
    (∀ (ta tb : State) (outA outB : List Byte), c.toNat + a.length / 64 < 2 ^ 32 → (a ++ b).length ≤ s.params.maxLen →
      exec (.transform a key nonce c) s = .next ta → ta.rsp = some (0x00 :: outA) →
      exec (.transform b key nonce (c + BitVec.ofNat 32 (a.length / 64))) s = .next tb → tb.rsp = some (0x00 :: outB) →
      ∃ t, exec (.transform (a ++ b) key nonce c) s = .next t ∧ t.rsp = some (0x00 :: (outA ++ outB)))

/-- R151: TRANSFORM of zero bytes returns the keystream; of 64 zero bytes, what BLOCK returns. -/
def Obligations.TransformOfZerosIsKeystream : Prop :=
  ∀ (key : Vector Byte 32) (nonce : Vector Byte 12) (c : Word) (n : Nat) (s s' : State),
    s.params.overflowPolicy = .lazy → n ≤ s.params.maxLen → n = 0 ∨ c.toNat + (n + 63) / 64 ≤ 2 ^ 32 →
    ∃ t out, exec (.transform (List.replicate n 0) key.toList nonce.toList c) s = .next t ∧
      t.status = .ok ∧ t.rsp = some (0x00 :: out) ∧ out.length = n ∧
      (∀ i, i < n → out[i]? =
        some ((blockFn key (c + BitVec.ofNat 32 (i / 64)) nonce)[i % 64]'(Nat.mod_lt i (by decide)))) ∧
      (n = 64 → ∃ t', exec (.block key.toList c nonce.toList) s' = .next t' ∧ t'.rsp = t.rsp)

/-- R195: two TRANSFORMs with one key and nonce whose counter ranges overlap use the same keystream bytes for both: over
the shared range the XOR of the outputs is the XOR of the inputs. -/
def Obligations.KeystreamReuseLeaksXor : Prop :=
  ∀ (d1 d2 key nonce : List Byte) (c1 c2 : Word) (s1 s2 t1 t2 : State) (o1 o2 : List Byte) (k : Nat),
    exec (.transform d1 key nonce c1) s1 = .next t1 → t1.rsp = some (0x00 :: o1) →
    exec (.transform d2 key nonce c2) s2 = .next t2 → t2.rsp = some (0x00 :: o2) →
    c2.toNat = c1.toNat + k →
    ∀ i, 64 * k + i < d1.length → i < d2.length →
      o1.getD (64 * k + i) 0 ^^^ o2.getD i 0 = d1.getD (64 * k + i) 0 ^^^ d2.getD i 0

/-- R199: no authentication; flipping bit `b` of input byte `i` is accepted and flips exactly bit `b` of output byte
`i`. -/
def Obligations.FlippedInputBitFlipsOutputBit : Prop :=
  ∀ (data key nonce : List Byte) (c : Word) (s s' t : State) (out : List Byte) (i : Nat) (b : Fin 8),
    exec (.transform data key nonce c) s = .next t → t.rsp = some (0x00 :: out) → i < data.length →
    s'.params = s.params →
    ∃ t', exec (.transform (data.set i (data.getD i 0 ^^^ (1#8 <<< b.val))) key nonce c) s' = .next t' ∧
      t'.rsp = some (0x00 :: out.set i (out.getD i 0 ^^^ (1#8 <<< b.val)))

/-- R142, R24: the sequencer of a TRANSFORM that ends with OK on valid lengths: OFF has reached LEN and CTR was
incremented once per block, a final partial block included. (That CTR and OFF keep these values after the response is
the model's choice, log entry 7.) -/
def Obligations.TransformSequencerEnd : Prop :=
  ∀ (data key nonce : List Byte) (c : Word) (s t : State), exec (.transform data key nonce c) s = .next t →
    t.status = .ok →
    t.off = data.length ∧
      t.ctr.toNat = c.toNat + (workOf (.transform data key nonce c)).quarterRounds / 80

/-- The frame of TRANSFORM: the buffers and latches hold the operands, the latches of QR and the open parameters are
unchanged (that dead registers keep their values is the model's choice, log entry 7). -/
def Obligations.TransformFrame : Prop :=
  ∀ (data key nonce : List Byte) (c : Word) (s t : State), exec (.transform data key nonce c) s = .next t →
    (t.pa, t.pb, t.pc, t.pd) = (s.pa, s.pb, s.pc, s.pd) ∧ t.params = s.params ∧ t.req = none ∧
      t.ctr0 = c ∧ t.klen = key.length ∧ t.nlen = nonce.length ∧ t.len = data.length ∧
      t.mem.key = key ∧ t.mem.nonce = nonce ∧ t.mem.data = data

/-! SELFTEST. -/

/-- R160, R162: SELFTEST ends with OK and the one byte 0x01 (true), from every state. -/
def Obligations.SelftestAnswersTrue : Prop :=
  ∀ s : State, ∃ t, exec .selftest s = .next t ∧ t.status = .ok ∧ t.busy = false ∧ t.rsp = some [0x00, 0x01]

/-- The frame of SELFTEST: it uses no operand buffer, latch, CTR or OFF (that dead registers keep their values is the
model's choice, log entry 7). -/
def Obligations.SelftestFrame : Prop :=
  ∀ s t : State, exec .selftest s = .next t →
    t.ctr = s.ctr ∧ t.off = s.off ∧ t.ctr0 = s.ctr0 ∧ t.klen = s.klen ∧ t.nlen = s.nlen ∧ t.len = s.len ∧
      (t.pa, t.pb, t.pc, t.pd) = (s.pa, s.pb, s.pc, s.pd) ∧ t.params = s.params ∧ t.req = none ∧
      ∀ b off n, b ≠ .ks → t.mem.read b off n = s.mem.read b off n

/-! Frames of requests, and the step. -/

/-- R72 to R75, R78: decoding the frame of a well-formed operation gives the operation back. -/
def Obligations.DecodeEncode : Prop := ∀ i : Instr, i.WellFormed → decode (encode i) = .ok i

/-- R72 to R75, R78: a request that decodes is the frame of the operation it decodes to, and that operation is
well-formed: each frame has one meaning, and no bit of it is dropped. -/
def Obligations.EncodeDecode : Prop := ∀ (req : List Byte) (i : Instr), decode req = .ok i → i.WellFormed ∧ encode i = req

/-- R78, R85: a request is a frame exactly when its length is the length its header implies. -/
def Obligations.DecodeIffNeededLength : Prop :=
  ∀ req : List Byte, (∃ i, decode req = .ok i) ↔ neededLength req = .ok req.length

/-- R79, R84: opcodes 0x00 and 0x05 to 0xFF are reserved; they and the empty request are no operation. -/
def Obligations.ReservedOpcodesRejected : Prop :=
  decode [] = .error .emptyRequest ∧
    ∀ (op : Byte) (body : List Byte), op.toNat = 0 ∨ 5 ≤ op.toNat → decode (op :: body) = .error (.reservedOpcode op)

/-- Words written out from the spec's own frames (95_test_vectors E5, E10, E17, P1, P3) decode to the operations they
stand for. -/
def Obligations.WrittenFramesDecode : Prop :=
  decode [0x04] = .ok .selftest ∧
  decode ([0x02, 0x20, 0x0c, 0x01, 0x00, 0x00, 0x00] ++ stKey.toList ++ stNonce.toList) =
    .ok (.block stKey.toList 1 stNonce.toList) ∧
  decode ([0x02, 0x21, 0x0c, 0x01, 0x00, 0x00, 0x00] ++ List.replicate 45 0) =
    .ok (.block (List.replicate 33 0) 1 (List.replicate 12 0)) ∧
  decode ([0x03, 0x20, 0x0c, 0xff, 0xff, 0xff, 0xff, 0x00, 0x00, 0x00, 0x00, 0x00, 0x00, 0x00, 0x00] ++
    List.replicate 44 0) = .ok (.transform [] (List.replicate 32 0) (List.replicate 12 0) 0xFFFFFFFF) ∧
  decode ([0x01, 0x04, 0x8c] ++ (bytesOfWords (initWords stKey 1 stNonce)).toList) =
    .ok (.qr (initWords stKey 1 stNonce) 0 4 8 12)

/-- R88, R147: ENCRYPT and DECRYPT are exactly TRANSFORM, with the same encoding, opcode 0x03. -/
def Obligations.EncryptDecryptAreTransform : Prop :=
  ∀ (env : Names) (data key nonce : BytesOperand) (c : Word),
    (AsmOp.encrypt data key nonce c).assemble env = (AsmOp.transform data key nonce c).assemble env ∧
    (AsmOp.decrypt data key nonce c).assemble env = (AsmOp.transform data key nonce c).assemble env ∧
    ∀ i, (AsmOp.encrypt data key nonce c).assemble env = some i → (encode i).head? = some 0x03

/-- R13, R78: an idle instance that was handed a request which decodes executes that operation; with the host's table
word in place, exactly the operation the table word decodes to. -/
def Obligations.StepRunsTheDecodedRequest : Prop :=
  (∀ (s : State) (req : List Byte) (i : Instr), s.busy = false → s.req = some req → decode req = .ok i →
    step s = exec i s) ∧
  ∀ (s : State) (nbits w : Nat) (i : Instr), decodeTableWord nbits w = some i →
    step (s.withFetchWord nbits w) = exec i (s.withFetchWord nbits w)

/-- R84, R85, R174: a request that is no frame is answered `InvalidInput` with an empty payload. R84 has it change nothing;
that STATUS is nevertheless written is log entry 8, and that every other register and buffer keeps its value is the model's
choice (log entry 7). -/
def Obligations.StepAnswersBadFrames : Prop :=
  ∀ (s : State) (req : List Byte) (e : DecodeError), s.busy = false → s.req = some req → decode req = .error e →
    step s = .next { s with status := .invalidInput, busy := false, req := none, rsp := some [0x01] }

/-- An idle instance without a request stays as it is: the model's choice (log entry 5, and log entry 7 for the
registers), which fits R190, where such an instance is ready for a request. R198, U3: a busy instance, or one whose request
waits or whose response is untaken, is given no request; the refusal is the model's form of U3 (log entry 6). -/
def Obligations.StepIdleAndBusy : Prop :=
  (∀ s : State, s.busy = false → s.req = none → step s = .next s) ∧
    (∀ s : State, s.busy = true → step s = .refused .busyInstance) ∧
    ∀ (s : State) (req : List Byte), s.busy = true ∨ s.req ≠ none ∨ s.rsp ≠ none →
      hostSubmit req s = .refused .busyInstance

/-- R78, R76, R77: a request handed to an idle instance gets exactly one response, which is [0x01], [0x02] or 0x00 and
a payload, and the instance is idle again; but for the two requests the spec says to refuse: a QR whose positions repeat
(R106) and a TRANSFORM of more than MAX_LEN bytes (U4, D17). -/
def Obligations.EveryRequestIsAnswered : Prop :=
  ∀ (s : State) (req : List Byte), s.busy = false → s.req = some req →
    (∃ t, step s = .next t ∧ t.busy = false ∧ t.req = none ∧
      ((t.status = .ok ∧ ∃ payload, t.rsp = some (0x00 :: payload)) ∨
        (t.status = .invalidInput ∧ t.rsp = some [0x01]) ∨
        (t.status = .counterOverflow ∧ t.rsp = some [0x02]))) ∨
    (step s = .refused .repeatedPositions ∧
      ∃ x pa pb pc pd, decode req = .ok (.qr x pa pb pc pd) ∧ ¬ [pa, pb, pc, pd].Nodup) ∨
    (step s = .refused .lengthAboveMax ∧
      ∃ data key nonce c, decode req = .ok (.transform data key nonce c) ∧ s.params.maxLen < data.length)

/-- R56, R173: no step faults; the CORE never reads or writes outside a buffer. -/
def Obligations.StepNeverFaults : Prop := ∀ (s : State) (e : Fault), step s ≠ .fault e

/-- R29, R31, R178, R59: the response is a function of the request (and of the open parameters) alone: no register or
buffer that an earlier operation left can be observed. -/
def Obligations.ResponseDependsOnRequestOnly : Prop :=
  ∀ (s u : State) (req : List Byte), s.busy = false → u.busy = false → s.req = some req → u.req = some req →
    s.params = u.params →
    observe (step s) = observe (step u) ∧
      ∀ s' u', step s = .next s' → step u = .next u' → s'.status = u'.status

/-- The invariant: between operations the CORE is idle, every buffer has the size its latch says, OUT is within its size,
and a pending response has the form of R76 with the code of STATUS. Every step keeps it, from every state that has it. That
buffers, latches and STATUS keep their values between operations is the model's choice (log entry 7). -/
def Obligations.InvariantKept : Prop := ∀ s t : State, Inv s → step s = .next t → Inv t ∧ t.params = s.params

/-- The invariant holds at reset. The register values at reset are the model's choice (log entry 1). -/
def Obligations.InvariantAtReset : Prop := Inv core.reset

/-- R190: after reset the CORE is idle, no operation running, no response pending, ready to accept a request (the ports
`req` and `rsp` are the model's form of it, log entry 5); R8, D8: OVERFLOW_POLICY is `lazy`. -/
def Obligations.ResetIsIdle : Prop :=
  State.reset.busy = false ∧ State.reset.req = none ∧ State.reset.rsp = none ∧
    (∀ req, hostSubmit req State.reset = .next { State.reset with req := some req }) ∧
    State.reset.params.overflowPolicy = .lazy

/-- R190, R191: reset at any time, a running operation included, makes the CORE idle with no response, and later
operations are unaffected, whatever the registers hold after the reset and held before it. That the open parameters stay
is the model's reading of R30 (log entry 17). -/
def Obligations.HostResetAbandons : Prop :=
  ∀ left s : State,
    (hostReset left s).busy = false ∧ (hostReset left s).req = none ∧ (hostReset left s).rsp = none ∧
      (hostReset left s).params = s.params ∧
      ∀ (left' s' : State) (req : List Byte), s'.params = s.params →
        responseOf (transact req (hostReset left s)) = responseOf (transact req (hostReset left' s'))

/-- R177: after a response, a failure response too, the host may issue any request: the same request again gets the same
response, and any other request the response it would have had without the first. -/
def Obligations.RetryGivesTheSameResponse : Prop :=
  ∀ (s s1 : State) (req : List Byte) (r : Option (List Byte)), transact req s = .next (r, s1) →
    (∃ s2, transact req s1 = .next (r, s2)) ∧
      ∀ req', responseOf (transact req' s1) = responseOf (transact req' s)

/-- R59, R181, D13: instances share nothing but the platform's fixed parameters. A step of one does what that instance
alone would do and leaves every other as it was; steps of two instances may be taken in either order. -/
def Obligations.InstancesAreIndependent : Prop :=
  ∀ (n : Nat) (j k : Fin n) (p p1 : Platform n), stepInstance k p = .next p1 →
    step (p.core k) = .next (p1.core k) ∧ p1.params = p.params ∧ (∀ i : Fin n, i ≠ k → p1.core i = p.core i) ∧
      (j ≠ k → ∀ p2, stepInstance j p1 = .next p2 →
        ∃ p1', stepInstance j p = .next p1' ∧ stepInstance k p1' = .next p2)

/-- R181: an operation's response does not depend on which instance ran it, nor on how many instances the platform has,
nor on what the instances hold: two free instances, of one platform or of two with the same open parameters, answer a
request alike. -/
def Obligations.ResponseIndependentOfInstance : Prop :=
  ∀ (n m : Nat) (p : Platform n) (q : Platform m) (j : Fin n) (k : Fin m) (req : List Byte), p.params = q.params →
    (p.core j).busy = false → (p.core j).req = none → (p.core j).rsp = none →
    (q.core k).busy = false → (q.core k).req = none → (q.core k).rsp = none →
    responseOfInstance (transactInstance j req p) = responseOfInstance (transactInstance k req q)
end

