-- ==== Sys2Proof/Laws/State.lean ====
section
/-! SUPPORT. What each state update leaves in each field, so that no later proof unfolds a record update. The proofs are
not bare rfl on purpose: simp then cites the lemma instead of asking the kernel to compare whole states. -/

namespace Sys2Proof.Machine

@[simp] theorem State.accept_x (st : State) :
    st.accept.x = st.x := by unfold State.accept; rfl
@[simp] theorem State.accept_s (st : State) :
    st.accept.s = st.s := by unfold State.accept; rfl
@[simp] theorem State.accept_dr (st : State) :
    st.accept.dr = st.dr := by unfold State.accept; rfl
@[simp] theorem State.accept_qi (st : State) :
    st.accept.qi = st.qi := by unfold State.accept; rfl
@[simp] theorem State.accept_ctr (st : State) :
    st.accept.ctr = st.ctr := by unfold State.accept; rfl
@[simp] theorem State.accept_off (st : State) :
    st.accept.off = st.off := by unfold State.accept; rfl
@[simp] theorem State.accept_ctr0 (st : State) :
    st.accept.ctr0 = st.ctr0 := by unfold State.accept; rfl
@[simp] theorem State.accept_klen (st : State) :
    st.accept.klen = st.klen := by unfold State.accept; rfl
@[simp] theorem State.accept_nlen (st : State) :
    st.accept.nlen = st.nlen := by unfold State.accept; rfl
@[simp] theorem State.accept_len (st : State) :
    st.accept.len = st.len := by unfold State.accept; rfl
@[simp] theorem State.accept_pa (st : State) :
    st.accept.pa = st.pa := by unfold State.accept; rfl
@[simp] theorem State.accept_pb (st : State) :
    st.accept.pb = st.pb := by unfold State.accept; rfl
@[simp] theorem State.accept_pc (st : State) :
    st.accept.pc = st.pc := by unfold State.accept; rfl
@[simp] theorem State.accept_pd (st : State) :
    st.accept.pd = st.pd := by unfold State.accept; rfl
@[simp] theorem State.accept_status (st : State) :
    st.accept.status = st.status := by unfold State.accept; rfl
@[simp] theorem State.accept_busy (st : State) :
    st.accept.busy = true := by unfold State.accept; rfl
@[simp] theorem State.accept_mem (st : State) :
    st.accept.mem = st.mem := by unfold State.accept; rfl
@[simp] theorem State.accept_req (st : State) :
    st.accept.req = none := by unfold State.accept; rfl
@[simp] theorem State.accept_rsp (st : State) :
    st.accept.rsp = none := by unfold State.accept; rfl
@[simp] theorem State.accept_params (st : State) :
    st.accept.params = st.params := by unfold State.accept; rfl

@[simp] theorem State.latchKeyNonce_x (k n : List Byte) (c : Word) (st : State) :
    (st.latchKeyNonce k n c).x = st.x := by unfold State.latchKeyNonce; rfl
@[simp] theorem State.latchKeyNonce_s (k n : List Byte) (c : Word) (st : State) :
    (st.latchKeyNonce k n c).s = st.s := by unfold State.latchKeyNonce; rfl
@[simp] theorem State.latchKeyNonce_dr (k n : List Byte) (c : Word) (st : State) :
    (st.latchKeyNonce k n c).dr = st.dr := by unfold State.latchKeyNonce; rfl
@[simp] theorem State.latchKeyNonce_qi (k n : List Byte) (c : Word) (st : State) :
    (st.latchKeyNonce k n c).qi = st.qi := by unfold State.latchKeyNonce; rfl
@[simp] theorem State.latchKeyNonce_ctr (k n : List Byte) (c : Word) (st : State) :
    (st.latchKeyNonce k n c).ctr = st.ctr := by unfold State.latchKeyNonce; rfl
@[simp] theorem State.latchKeyNonce_off (k n : List Byte) (c : Word) (st : State) :
    (st.latchKeyNonce k n c).off = st.off := by unfold State.latchKeyNonce; rfl
@[simp] theorem State.latchKeyNonce_ctr0 (k n : List Byte) (c : Word) (st : State) :
    (st.latchKeyNonce k n c).ctr0 = c := by unfold State.latchKeyNonce; rfl
@[simp] theorem State.latchKeyNonce_klen (k n : List Byte) (c : Word) (st : State) :
    (st.latchKeyNonce k n c).klen = k.length := by unfold State.latchKeyNonce; rfl
@[simp] theorem State.latchKeyNonce_nlen (k n : List Byte) (c : Word) (st : State) :
    (st.latchKeyNonce k n c).nlen = n.length := by unfold State.latchKeyNonce; rfl
@[simp] theorem State.latchKeyNonce_len (k n : List Byte) (c : Word) (st : State) :
    (st.latchKeyNonce k n c).len = st.len := by unfold State.latchKeyNonce; rfl
@[simp] theorem State.latchKeyNonce_pa (k n : List Byte) (c : Word) (st : State) :
    (st.latchKeyNonce k n c).pa = st.pa := by unfold State.latchKeyNonce; rfl
@[simp] theorem State.latchKeyNonce_pb (k n : List Byte) (c : Word) (st : State) :
    (st.latchKeyNonce k n c).pb = st.pb := by unfold State.latchKeyNonce; rfl
@[simp] theorem State.latchKeyNonce_pc (k n : List Byte) (c : Word) (st : State) :
    (st.latchKeyNonce k n c).pc = st.pc := by unfold State.latchKeyNonce; rfl
@[simp] theorem State.latchKeyNonce_pd (k n : List Byte) (c : Word) (st : State) :
    (st.latchKeyNonce k n c).pd = st.pd := by unfold State.latchKeyNonce; rfl
@[simp] theorem State.latchKeyNonce_status (k n : List Byte) (c : Word) (st : State) :
    (st.latchKeyNonce k n c).status = st.status := by unfold State.latchKeyNonce; rfl
@[simp] theorem State.latchKeyNonce_busy (k n : List Byte) (c : Word) (st : State) :
    (st.latchKeyNonce k n c).busy = st.busy := by unfold State.latchKeyNonce; rfl
@[simp] theorem State.latchKeyNonce_mem_key (k n : List Byte) (c : Word) (st : State) :
    (st.latchKeyNonce k n c).mem.key = k := by unfold State.latchKeyNonce; rfl
@[simp] theorem State.latchKeyNonce_mem_nonce (k n : List Byte) (c : Word) (st : State) :
    (st.latchKeyNonce k n c).mem.nonce = n := by unfold State.latchKeyNonce; rfl
@[simp] theorem State.latchKeyNonce_mem_data (k n : List Byte) (c : Word) (st : State) :
    (st.latchKeyNonce k n c).mem.data = st.mem.data := by unfold State.latchKeyNonce; rfl
@[simp] theorem State.latchKeyNonce_mem_ks (k n : List Byte) (c : Word) (st : State) :
    (st.latchKeyNonce k n c).mem.ks = st.mem.ks := by unfold State.latchKeyNonce; rfl
@[simp] theorem State.latchKeyNonce_mem_out (k n : List Byte) (c : Word) (st : State) :
    (st.latchKeyNonce k n c).mem.out = st.mem.out := by unfold State.latchKeyNonce; rfl
@[simp] theorem State.latchKeyNonce_mem_outSize (k n : List Byte) (c : Word) (st : State) :
    (st.latchKeyNonce k n c).mem.outSize = st.mem.outSize := by unfold State.latchKeyNonce; rfl
@[simp] theorem State.latchKeyNonce_req (k n : List Byte) (c : Word) (st : State) :
    (st.latchKeyNonce k n c).req = st.req := by unfold State.latchKeyNonce; rfl
@[simp] theorem State.latchKeyNonce_rsp (k n : List Byte) (c : Word) (st : State) :
    (st.latchKeyNonce k n c).rsp = st.rsp := by unfold State.latchKeyNonce; rfl
@[simp] theorem State.latchKeyNonce_params (k n : List Byte) (c : Word) (st : State) :
    (st.latchKeyNonce k n c).params = st.params := by unfold State.latchKeyNonce; rfl

@[simp] theorem State.latchData_x (d : List Byte) (st : State) :
    (st.latchData d).x = st.x := by unfold State.latchData; rfl
@[simp] theorem State.latchData_s (d : List Byte) (st : State) :
    (st.latchData d).s = st.s := by unfold State.latchData; rfl
@[simp] theorem State.latchData_dr (d : List Byte) (st : State) :
    (st.latchData d).dr = st.dr := by unfold State.latchData; rfl
@[simp] theorem State.latchData_qi (d : List Byte) (st : State) :
    (st.latchData d).qi = st.qi := by unfold State.latchData; rfl
@[simp] theorem State.latchData_ctr (d : List Byte) (st : State) :
    (st.latchData d).ctr = st.ctr := by unfold State.latchData; rfl
@[simp] theorem State.latchData_off (d : List Byte) (st : State) :
    (st.latchData d).off = st.off := by unfold State.latchData; rfl
@[simp] theorem State.latchData_ctr0 (d : List Byte) (st : State) :
    (st.latchData d).ctr0 = st.ctr0 := by unfold State.latchData; rfl
@[simp] theorem State.latchData_klen (d : List Byte) (st : State) :
    (st.latchData d).klen = st.klen := by unfold State.latchData; rfl
@[simp] theorem State.latchData_nlen (d : List Byte) (st : State) :
    (st.latchData d).nlen = st.nlen := by unfold State.latchData; rfl
@[simp] theorem State.latchData_len (d : List Byte) (st : State) :
    (st.latchData d).len = d.length := by unfold State.latchData; rfl
@[simp] theorem State.latchData_pa (d : List Byte) (st : State) :
    (st.latchData d).pa = st.pa := by unfold State.latchData; rfl
@[simp] theorem State.latchData_pb (d : List Byte) (st : State) :
    (st.latchData d).pb = st.pb := by unfold State.latchData; rfl
@[simp] theorem State.latchData_pc (d : List Byte) (st : State) :
    (st.latchData d).pc = st.pc := by unfold State.latchData; rfl
@[simp] theorem State.latchData_pd (d : List Byte) (st : State) :
    (st.latchData d).pd = st.pd := by unfold State.latchData; rfl
@[simp] theorem State.latchData_status (d : List Byte) (st : State) :
    (st.latchData d).status = st.status := by unfold State.latchData; rfl
@[simp] theorem State.latchData_busy (d : List Byte) (st : State) :
    (st.latchData d).busy = st.busy := by unfold State.latchData; rfl
@[simp] theorem State.latchData_mem_key (d : List Byte) (st : State) :
    (st.latchData d).mem.key = st.mem.key := by unfold State.latchData; rfl
@[simp] theorem State.latchData_mem_nonce (d : List Byte) (st : State) :
    (st.latchData d).mem.nonce = st.mem.nonce := by unfold State.latchData; rfl
@[simp] theorem State.latchData_mem_data (d : List Byte) (st : State) :
    (st.latchData d).mem.data = d := by unfold State.latchData; rfl
@[simp] theorem State.latchData_mem_ks (d : List Byte) (st : State) :
    (st.latchData d).mem.ks = st.mem.ks := by unfold State.latchData; rfl
@[simp] theorem State.latchData_mem_out (d : List Byte) (st : State) :
    (st.latchData d).mem.out = st.mem.out := by unfold State.latchData; rfl
@[simp] theorem State.latchData_mem_outSize (d : List Byte) (st : State) :
    (st.latchData d).mem.outSize = st.mem.outSize := by unfold State.latchData; rfl
@[simp] theorem State.latchData_req (d : List Byte) (st : State) :
    (st.latchData d).req = st.req := by unfold State.latchData; rfl
@[simp] theorem State.latchData_rsp (d : List Byte) (st : State) :
    (st.latchData d).rsp = st.rsp := by unfold State.latchData; rfl
@[simp] theorem State.latchData_params (d : List Byte) (st : State) :
    (st.latchData d).params = st.params := by unfold State.latchData; rfl

@[simp] theorem State.latchQr_x (x : Vector Word 16) (pa pb pc pd : Pos) (st : State) :
    (State.latchQr x pa pb pc pd st).x = x := by unfold State.latchQr; rfl
@[simp] theorem State.latchQr_s (x : Vector Word 16) (pa pb pc pd : Pos) (st : State) :
    (State.latchQr x pa pb pc pd st).s = st.s := by unfold State.latchQr; rfl
@[simp] theorem State.latchQr_dr (x : Vector Word 16) (pa pb pc pd : Pos) (st : State) :
    (State.latchQr x pa pb pc pd st).dr = st.dr := by unfold State.latchQr; rfl
@[simp] theorem State.latchQr_qi (x : Vector Word 16) (pa pb pc pd : Pos) (st : State) :
    (State.latchQr x pa pb pc pd st).qi = st.qi := by unfold State.latchQr; rfl
@[simp] theorem State.latchQr_ctr (x : Vector Word 16) (pa pb pc pd : Pos) (st : State) :
    (State.latchQr x pa pb pc pd st).ctr = st.ctr := by unfold State.latchQr; rfl
@[simp] theorem State.latchQr_off (x : Vector Word 16) (pa pb pc pd : Pos) (st : State) :
    (State.latchQr x pa pb pc pd st).off = st.off := by unfold State.latchQr; rfl
@[simp] theorem State.latchQr_ctr0 (x : Vector Word 16) (pa pb pc pd : Pos) (st : State) :
    (State.latchQr x pa pb pc pd st).ctr0 = st.ctr0 := by unfold State.latchQr; rfl
@[simp] theorem State.latchQr_klen (x : Vector Word 16) (pa pb pc pd : Pos) (st : State) :
    (State.latchQr x pa pb pc pd st).klen = st.klen := by unfold State.latchQr; rfl
@[simp] theorem State.latchQr_nlen (x : Vector Word 16) (pa pb pc pd : Pos) (st : State) :
    (State.latchQr x pa pb pc pd st).nlen = st.nlen := by unfold State.latchQr; rfl
@[simp] theorem State.latchQr_len (x : Vector Word 16) (pa pb pc pd : Pos) (st : State) :
    (State.latchQr x pa pb pc pd st).len = st.len := by unfold State.latchQr; rfl
@[simp] theorem State.latchQr_pa (x : Vector Word 16) (pa pb pc pd : Pos) (st : State) :
    (State.latchQr x pa pb pc pd st).pa = pa := by unfold State.latchQr; rfl
@[simp] theorem State.latchQr_pb (x : Vector Word 16) (pa pb pc pd : Pos) (st : State) :
    (State.latchQr x pa pb pc pd st).pb = pb := by unfold State.latchQr; rfl
@[simp] theorem State.latchQr_pc (x : Vector Word 16) (pa pb pc pd : Pos) (st : State) :
    (State.latchQr x pa pb pc pd st).pc = pc := by unfold State.latchQr; rfl
@[simp] theorem State.latchQr_pd (x : Vector Word 16) (pa pb pc pd : Pos) (st : State) :
    (State.latchQr x pa pb pc pd st).pd = pd := by unfold State.latchQr; rfl
@[simp] theorem State.latchQr_status (x : Vector Word 16) (pa pb pc pd : Pos) (st : State) :
    (State.latchQr x pa pb pc pd st).status = st.status := by unfold State.latchQr; rfl
@[simp] theorem State.latchQr_busy (x : Vector Word 16) (pa pb pc pd : Pos) (st : State) :
    (State.latchQr x pa pb pc pd st).busy = st.busy := by unfold State.latchQr; rfl
@[simp] theorem State.latchQr_mem (x : Vector Word 16) (pa pb pc pd : Pos) (st : State) :
    (State.latchQr x pa pb pc pd st).mem = st.mem := by unfold State.latchQr; rfl
@[simp] theorem State.latchQr_req (x : Vector Word 16) (pa pb pc pd : Pos) (st : State) :
    (State.latchQr x pa pb pc pd st).req = st.req := by unfold State.latchQr; rfl
@[simp] theorem State.latchQr_rsp (x : Vector Word 16) (pa pb pc pd : Pos) (st : State) :
    (State.latchQr x pa pb pc pd st).rsp = st.rsp := by unfold State.latchQr; rfl
@[simp] theorem State.latchQr_params (x : Vector Word 16) (pa pb pc pd : Pos) (st : State) :
    (State.latchQr x pa pb pc pd st).params = st.params := by unfold State.latchQr; rfl

@[simp] theorem State.qrAtLatched_x (st : State) :
    st.qrAtLatched.x = qrAt st.x st.pa st.pb st.pc st.pd := by unfold State.qrAtLatched; rfl
@[simp] theorem State.qrAtLatched_s (st : State) :
    st.qrAtLatched.s = st.s := by unfold State.qrAtLatched; rfl
@[simp] theorem State.qrAtLatched_dr (st : State) :
    st.qrAtLatched.dr = st.dr := by unfold State.qrAtLatched; rfl
@[simp] theorem State.qrAtLatched_qi (st : State) :
    st.qrAtLatched.qi = st.qi := by unfold State.qrAtLatched; rfl
@[simp] theorem State.qrAtLatched_ctr (st : State) :
    st.qrAtLatched.ctr = st.ctr := by unfold State.qrAtLatched; rfl
@[simp] theorem State.qrAtLatched_off (st : State) :
    st.qrAtLatched.off = st.off := by unfold State.qrAtLatched; rfl
@[simp] theorem State.qrAtLatched_ctr0 (st : State) :
    st.qrAtLatched.ctr0 = st.ctr0 := by unfold State.qrAtLatched; rfl
@[simp] theorem State.qrAtLatched_klen (st : State) :
    st.qrAtLatched.klen = st.klen := by unfold State.qrAtLatched; rfl
@[simp] theorem State.qrAtLatched_nlen (st : State) :
    st.qrAtLatched.nlen = st.nlen := by unfold State.qrAtLatched; rfl
@[simp] theorem State.qrAtLatched_len (st : State) :
    st.qrAtLatched.len = st.len := by unfold State.qrAtLatched; rfl
@[simp] theorem State.qrAtLatched_pa (st : State) :
    st.qrAtLatched.pa = st.pa := by unfold State.qrAtLatched; rfl
@[simp] theorem State.qrAtLatched_pb (st : State) :
    st.qrAtLatched.pb = st.pb := by unfold State.qrAtLatched; rfl
@[simp] theorem State.qrAtLatched_pc (st : State) :
    st.qrAtLatched.pc = st.pc := by unfold State.qrAtLatched; rfl
@[simp] theorem State.qrAtLatched_pd (st : State) :
    st.qrAtLatched.pd = st.pd := by unfold State.qrAtLatched; rfl
@[simp] theorem State.qrAtLatched_status (st : State) :
    st.qrAtLatched.status = st.status := by unfold State.qrAtLatched; rfl
@[simp] theorem State.qrAtLatched_busy (st : State) :
    st.qrAtLatched.busy = st.busy := by unfold State.qrAtLatched; rfl
@[simp] theorem State.qrAtLatched_mem (st : State) :
    st.qrAtLatched.mem = st.mem := by unfold State.qrAtLatched; rfl
@[simp] theorem State.qrAtLatched_req (st : State) :
    st.qrAtLatched.req = st.req := by unfold State.qrAtLatched; rfl
@[simp] theorem State.qrAtLatched_rsp (st : State) :
    st.qrAtLatched.rsp = st.rsp := by unfold State.qrAtLatched; rfl
@[simp] theorem State.qrAtLatched_params (st : State) :
    st.qrAtLatched.params = st.params := by unfold State.qrAtLatched; rfl

@[simp] theorem State.allocOut_x (n : Nat) (st : State) :
    (st.allocOut n).x = st.x := by unfold State.allocOut; rfl
@[simp] theorem State.allocOut_s (n : Nat) (st : State) :
    (st.allocOut n).s = st.s := by unfold State.allocOut; rfl
@[simp] theorem State.allocOut_dr (n : Nat) (st : State) :
    (st.allocOut n).dr = st.dr := by unfold State.allocOut; rfl
@[simp] theorem State.allocOut_qi (n : Nat) (st : State) :
    (st.allocOut n).qi = st.qi := by unfold State.allocOut; rfl
@[simp] theorem State.allocOut_ctr (n : Nat) (st : State) :
    (st.allocOut n).ctr = st.ctr := by unfold State.allocOut; rfl
@[simp] theorem State.allocOut_off (n : Nat) (st : State) :
    (st.allocOut n).off = st.off := by unfold State.allocOut; rfl
@[simp] theorem State.allocOut_ctr0 (n : Nat) (st : State) :
    (st.allocOut n).ctr0 = st.ctr0 := by unfold State.allocOut; rfl
@[simp] theorem State.allocOut_klen (n : Nat) (st : State) :
    (st.allocOut n).klen = st.klen := by unfold State.allocOut; rfl
@[simp] theorem State.allocOut_nlen (n : Nat) (st : State) :
    (st.allocOut n).nlen = st.nlen := by unfold State.allocOut; rfl
@[simp] theorem State.allocOut_len (n : Nat) (st : State) :
    (st.allocOut n).len = st.len := by unfold State.allocOut; rfl
@[simp] theorem State.allocOut_pa (n : Nat) (st : State) :
    (st.allocOut n).pa = st.pa := by unfold State.allocOut; rfl
@[simp] theorem State.allocOut_pb (n : Nat) (st : State) :
    (st.allocOut n).pb = st.pb := by unfold State.allocOut; rfl
@[simp] theorem State.allocOut_pc (n : Nat) (st : State) :
    (st.allocOut n).pc = st.pc := by unfold State.allocOut; rfl
@[simp] theorem State.allocOut_pd (n : Nat) (st : State) :
    (st.allocOut n).pd = st.pd := by unfold State.allocOut; rfl
@[simp] theorem State.allocOut_status (n : Nat) (st : State) :
    (st.allocOut n).status = st.status := by unfold State.allocOut; rfl
@[simp] theorem State.allocOut_busy (n : Nat) (st : State) :
    (st.allocOut n).busy = st.busy := by unfold State.allocOut; rfl
@[simp] theorem State.allocOut_mem_key (n : Nat) (st : State) :
    (st.allocOut n).mem.key = st.mem.key := by unfold State.allocOut; rfl
@[simp] theorem State.allocOut_mem_nonce (n : Nat) (st : State) :
    (st.allocOut n).mem.nonce = st.mem.nonce := by unfold State.allocOut; rfl
@[simp] theorem State.allocOut_mem_data (n : Nat) (st : State) :
    (st.allocOut n).mem.data = st.mem.data := by unfold State.allocOut; rfl
@[simp] theorem State.allocOut_mem_ks (n : Nat) (st : State) :
    (st.allocOut n).mem.ks = st.mem.ks := by unfold State.allocOut; rfl
@[simp] theorem State.allocOut_mem_out (n : Nat) (st : State) :
    (st.allocOut n).mem.out = [] := by unfold State.allocOut; rfl
@[simp] theorem State.allocOut_mem_outSize (n : Nat) (st : State) :
    (st.allocOut n).mem.outSize = n := by unfold State.allocOut; rfl
@[simp] theorem State.allocOut_req (n : Nat) (st : State) :
    (st.allocOut n).req = st.req := by unfold State.allocOut; rfl
@[simp] theorem State.allocOut_rsp (n : Nat) (st : State) :
    (st.allocOut n).rsp = st.rsp := by unfold State.allocOut; rfl
@[simp] theorem State.allocOut_params (n : Nat) (st : State) :
    (st.allocOut n).params = st.params := by unfold State.allocOut; rfl

@[simp] theorem State.startDriver_x (st : State) :
    st.startDriver.x = st.x := by unfold State.startDriver; rfl
@[simp] theorem State.startDriver_s (st : State) :
    st.startDriver.s = st.s := by unfold State.startDriver; rfl
@[simp] theorem State.startDriver_dr (st : State) :
    st.startDriver.dr = st.dr := by unfold State.startDriver; rfl
@[simp] theorem State.startDriver_qi (st : State) :
    st.startDriver.qi = st.qi := by unfold State.startDriver; rfl
@[simp] theorem State.startDriver_ctr (st : State) :
    st.startDriver.ctr = st.ctr0.setWidth 33 := by unfold State.startDriver; rfl
@[simp] theorem State.startDriver_off (st : State) :
    st.startDriver.off = 0 := by unfold State.startDriver; rfl
@[simp] theorem State.startDriver_ctr0 (st : State) :
    st.startDriver.ctr0 = st.ctr0 := by unfold State.startDriver; rfl
@[simp] theorem State.startDriver_klen (st : State) :
    st.startDriver.klen = st.klen := by unfold State.startDriver; rfl
@[simp] theorem State.startDriver_nlen (st : State) :
    st.startDriver.nlen = st.nlen := by unfold State.startDriver; rfl
@[simp] theorem State.startDriver_len (st : State) :
    st.startDriver.len = st.len := by unfold State.startDriver; rfl
@[simp] theorem State.startDriver_pa (st : State) :
    st.startDriver.pa = st.pa := by unfold State.startDriver; rfl
@[simp] theorem State.startDriver_pb (st : State) :
    st.startDriver.pb = st.pb := by unfold State.startDriver; rfl
@[simp] theorem State.startDriver_pc (st : State) :
    st.startDriver.pc = st.pc := by unfold State.startDriver; rfl
@[simp] theorem State.startDriver_pd (st : State) :
    st.startDriver.pd = st.pd := by unfold State.startDriver; rfl
@[simp] theorem State.startDriver_status (st : State) :
    st.startDriver.status = st.status := by unfold State.startDriver; rfl
@[simp] theorem State.startDriver_busy (st : State) :
    st.startDriver.busy = st.busy := by unfold State.startDriver; rfl
@[simp] theorem State.startDriver_mem_key (st : State) :
    st.startDriver.mem.key = st.mem.key := by unfold State.startDriver; rfl
@[simp] theorem State.startDriver_mem_nonce (st : State) :
    st.startDriver.mem.nonce = st.mem.nonce := by unfold State.startDriver; rfl
@[simp] theorem State.startDriver_mem_data (st : State) :
    st.startDriver.mem.data = st.mem.data := by unfold State.startDriver; rfl
@[simp] theorem State.startDriver_mem_ks (st : State) :
    st.startDriver.mem.ks = st.mem.ks := by unfold State.startDriver; rfl
@[simp] theorem State.startDriver_mem_out (st : State) :
    st.startDriver.mem.out = [] := by unfold State.startDriver; rfl
@[simp] theorem State.startDriver_mem_outSize (st : State) :
    st.startDriver.mem.outSize = st.len := by unfold State.startDriver; rfl
@[simp] theorem State.startDriver_req (st : State) :
    st.startDriver.req = st.req := by unfold State.startDriver; rfl
@[simp] theorem State.startDriver_rsp (st : State) :
    st.startDriver.rsp = st.rsp := by unfold State.startDriver; rfl
@[simp] theorem State.startDriver_params (st : State) :
    st.startDriver.params = st.params := by unfold State.startDriver; rfl

@[simp] theorem State.initBlock_x (k : Vector Byte 32) (c : Word) (n : Vector Byte 12) (st : State) :
    (st.initBlock k c n).x = st.x := by unfold State.initBlock; rfl
@[simp] theorem State.initBlock_s (k : Vector Byte 32) (c : Word) (n : Vector Byte 12) (st : State) :
    (st.initBlock k c n).s = initWords k c n := by unfold State.initBlock; rfl
@[simp] theorem State.initBlock_dr (k : Vector Byte 32) (c : Word) (n : Vector Byte 12) (st : State) :
    (st.initBlock k c n).dr = st.dr := by unfold State.initBlock; rfl
@[simp] theorem State.initBlock_qi (k : Vector Byte 32) (c : Word) (n : Vector Byte 12) (st : State) :
    (st.initBlock k c n).qi = st.qi := by unfold State.initBlock; rfl
@[simp] theorem State.initBlock_ctr (k : Vector Byte 32) (c : Word) (n : Vector Byte 12) (st : State) :
    (st.initBlock k c n).ctr = st.ctr := by unfold State.initBlock; rfl
@[simp] theorem State.initBlock_off (k : Vector Byte 32) (c : Word) (n : Vector Byte 12) (st : State) :
    (st.initBlock k c n).off = st.off := by unfold State.initBlock; rfl
@[simp] theorem State.initBlock_ctr0 (k : Vector Byte 32) (c : Word) (n : Vector Byte 12) (st : State) :
    (st.initBlock k c n).ctr0 = st.ctr0 := by unfold State.initBlock; rfl
@[simp] theorem State.initBlock_klen (k : Vector Byte 32) (c : Word) (n : Vector Byte 12) (st : State) :
    (st.initBlock k c n).klen = st.klen := by unfold State.initBlock; rfl
@[simp] theorem State.initBlock_nlen (k : Vector Byte 32) (c : Word) (n : Vector Byte 12) (st : State) :
    (st.initBlock k c n).nlen = st.nlen := by unfold State.initBlock; rfl
@[simp] theorem State.initBlock_len (k : Vector Byte 32) (c : Word) (n : Vector Byte 12) (st : State) :
    (st.initBlock k c n).len = st.len := by unfold State.initBlock; rfl
@[simp] theorem State.initBlock_pa (k : Vector Byte 32) (c : Word) (n : Vector Byte 12) (st : State) :
    (st.initBlock k c n).pa = st.pa := by unfold State.initBlock; rfl
@[simp] theorem State.initBlock_pb (k : Vector Byte 32) (c : Word) (n : Vector Byte 12) (st : State) :
    (st.initBlock k c n).pb = st.pb := by unfold State.initBlock; rfl
@[simp] theorem State.initBlock_pc (k : Vector Byte 32) (c : Word) (n : Vector Byte 12) (st : State) :
    (st.initBlock k c n).pc = st.pc := by unfold State.initBlock; rfl
@[simp] theorem State.initBlock_pd (k : Vector Byte 32) (c : Word) (n : Vector Byte 12) (st : State) :
    (st.initBlock k c n).pd = st.pd := by unfold State.initBlock; rfl
@[simp] theorem State.initBlock_status (k : Vector Byte 32) (c : Word) (n : Vector Byte 12) (st : State) :
    (st.initBlock k c n).status = st.status := by unfold State.initBlock; rfl
@[simp] theorem State.initBlock_busy (k : Vector Byte 32) (c : Word) (n : Vector Byte 12) (st : State) :
    (st.initBlock k c n).busy = st.busy := by unfold State.initBlock; rfl
@[simp] theorem State.initBlock_mem (k : Vector Byte 32) (c : Word) (n : Vector Byte 12) (st : State) :
    (st.initBlock k c n).mem = st.mem := by unfold State.initBlock; rfl
@[simp] theorem State.initBlock_req (k : Vector Byte 32) (c : Word) (n : Vector Byte 12) (st : State) :
    (st.initBlock k c n).req = st.req := by unfold State.initBlock; rfl
@[simp] theorem State.initBlock_rsp (k : Vector Byte 32) (c : Word) (n : Vector Byte 12) (st : State) :
    (st.initBlock k c n).rsp = st.rsp := by unfold State.initBlock; rfl
@[simp] theorem State.initBlock_params (k : Vector Byte 32) (c : Word) (n : Vector Byte 12) (st : State) :
    (st.initBlock k c n).params = st.params := by unfold State.initBlock; rfl

@[simp] theorem State.copyToWorking_x (st : State) :
    st.copyToWorking.x = st.s := by unfold State.copyToWorking; rfl
@[simp] theorem State.copyToWorking_s (st : State) :
    st.copyToWorking.s = st.s := by unfold State.copyToWorking; rfl
@[simp] theorem State.copyToWorking_dr (st : State) :
    st.copyToWorking.dr = st.dr := by unfold State.copyToWorking; rfl
@[simp] theorem State.copyToWorking_qi (st : State) :
    st.copyToWorking.qi = st.qi := by unfold State.copyToWorking; rfl
@[simp] theorem State.copyToWorking_ctr (st : State) :
    st.copyToWorking.ctr = st.ctr := by unfold State.copyToWorking; rfl
@[simp] theorem State.copyToWorking_off (st : State) :
    st.copyToWorking.off = st.off := by unfold State.copyToWorking; rfl
@[simp] theorem State.copyToWorking_ctr0 (st : State) :
    st.copyToWorking.ctr0 = st.ctr0 := by unfold State.copyToWorking; rfl
@[simp] theorem State.copyToWorking_klen (st : State) :
    st.copyToWorking.klen = st.klen := by unfold State.copyToWorking; rfl
@[simp] theorem State.copyToWorking_nlen (st : State) :
    st.copyToWorking.nlen = st.nlen := by unfold State.copyToWorking; rfl
@[simp] theorem State.copyToWorking_len (st : State) :
    st.copyToWorking.len = st.len := by unfold State.copyToWorking; rfl
@[simp] theorem State.copyToWorking_pa (st : State) :
    st.copyToWorking.pa = st.pa := by unfold State.copyToWorking; rfl
@[simp] theorem State.copyToWorking_pb (st : State) :
    st.copyToWorking.pb = st.pb := by unfold State.copyToWorking; rfl
@[simp] theorem State.copyToWorking_pc (st : State) :
    st.copyToWorking.pc = st.pc := by unfold State.copyToWorking; rfl
@[simp] theorem State.copyToWorking_pd (st : State) :
    st.copyToWorking.pd = st.pd := by unfold State.copyToWorking; rfl
@[simp] theorem State.copyToWorking_status (st : State) :
    st.copyToWorking.status = st.status := by unfold State.copyToWorking; rfl
@[simp] theorem State.copyToWorking_busy (st : State) :
    st.copyToWorking.busy = st.busy := by unfold State.copyToWorking; rfl
@[simp] theorem State.copyToWorking_mem (st : State) :
    st.copyToWorking.mem = st.mem := by unfold State.copyToWorking; rfl
@[simp] theorem State.copyToWorking_req (st : State) :
    st.copyToWorking.req = st.req := by unfold State.copyToWorking; rfl
@[simp] theorem State.copyToWorking_rsp (st : State) :
    st.copyToWorking.rsp = st.rsp := by unfold State.copyToWorking; rfl
@[simp] theorem State.copyToWorking_params (st : State) :
    st.copyToWorking.params = st.params := by unfold State.copyToWorking; rfl

@[simp] theorem State.startRounds_x (st : State) :
    st.startRounds.x = st.x := by unfold State.startRounds; rfl
@[simp] theorem State.startRounds_s (st : State) :
    st.startRounds.s = st.s := by unfold State.startRounds; rfl
@[simp] theorem State.startRounds_dr (st : State) :
    st.startRounds.dr = 0 := by unfold State.startRounds; rfl
@[simp] theorem State.startRounds_qi (st : State) :
    st.startRounds.qi = 0 := by unfold State.startRounds; rfl
@[simp] theorem State.startRounds_ctr (st : State) :
    st.startRounds.ctr = st.ctr := by unfold State.startRounds; rfl
@[simp] theorem State.startRounds_off (st : State) :
    st.startRounds.off = st.off := by unfold State.startRounds; rfl
@[simp] theorem State.startRounds_ctr0 (st : State) :
    st.startRounds.ctr0 = st.ctr0 := by unfold State.startRounds; rfl
@[simp] theorem State.startRounds_klen (st : State) :
    st.startRounds.klen = st.klen := by unfold State.startRounds; rfl
@[simp] theorem State.startRounds_nlen (st : State) :
    st.startRounds.nlen = st.nlen := by unfold State.startRounds; rfl
@[simp] theorem State.startRounds_len (st : State) :
    st.startRounds.len = st.len := by unfold State.startRounds; rfl
@[simp] theorem State.startRounds_pa (st : State) :
    st.startRounds.pa = st.pa := by unfold State.startRounds; rfl
@[simp] theorem State.startRounds_pb (st : State) :
    st.startRounds.pb = st.pb := by unfold State.startRounds; rfl
@[simp] theorem State.startRounds_pc (st : State) :
    st.startRounds.pc = st.pc := by unfold State.startRounds; rfl
@[simp] theorem State.startRounds_pd (st : State) :
    st.startRounds.pd = st.pd := by unfold State.startRounds; rfl
@[simp] theorem State.startRounds_status (st : State) :
    st.startRounds.status = st.status := by unfold State.startRounds; rfl
@[simp] theorem State.startRounds_busy (st : State) :
    st.startRounds.busy = st.busy := by unfold State.startRounds; rfl
@[simp] theorem State.startRounds_mem (st : State) :
    st.startRounds.mem = st.mem := by unfold State.startRounds; rfl
@[simp] theorem State.startRounds_req (st : State) :
    st.startRounds.req = st.req := by unfold State.startRounds; rfl
@[simp] theorem State.startRounds_rsp (st : State) :
    st.startRounds.rsp = st.rsp := by unfold State.startRounds; rfl
@[simp] theorem State.startRounds_params (st : State) :
    st.startRounds.params = st.params := by unfold State.startRounds; rfl

@[simp] theorem State.finishBlock_x (st : State) :
    st.finishBlock.x = st.x := by unfold State.finishBlock; rfl
@[simp] theorem State.finishBlock_s (st : State) :
    st.finishBlock.s = st.s := by unfold State.finishBlock; rfl
@[simp] theorem State.finishBlock_dr (st : State) :
    st.finishBlock.dr = st.dr := by unfold State.finishBlock; rfl
@[simp] theorem State.finishBlock_qi (st : State) :
    st.finishBlock.qi = st.qi := by unfold State.finishBlock; rfl
@[simp] theorem State.finishBlock_ctr (st : State) :
    st.finishBlock.ctr = st.ctr := by unfold State.finishBlock; rfl
@[simp] theorem State.finishBlock_off (st : State) :
    st.finishBlock.off = st.off := by unfold State.finishBlock; rfl
@[simp] theorem State.finishBlock_ctr0 (st : State) :
    st.finishBlock.ctr0 = st.ctr0 := by unfold State.finishBlock; rfl
@[simp] theorem State.finishBlock_klen (st : State) :
    st.finishBlock.klen = st.klen := by unfold State.finishBlock; rfl
@[simp] theorem State.finishBlock_nlen (st : State) :
    st.finishBlock.nlen = st.nlen := by unfold State.finishBlock; rfl
@[simp] theorem State.finishBlock_len (st : State) :
    st.finishBlock.len = st.len := by unfold State.finishBlock; rfl
@[simp] theorem State.finishBlock_pa (st : State) :
    st.finishBlock.pa = st.pa := by unfold State.finishBlock; rfl
@[simp] theorem State.finishBlock_pb (st : State) :
    st.finishBlock.pb = st.pb := by unfold State.finishBlock; rfl
@[simp] theorem State.finishBlock_pc (st : State) :
    st.finishBlock.pc = st.pc := by unfold State.finishBlock; rfl
@[simp] theorem State.finishBlock_pd (st : State) :
    st.finishBlock.pd = st.pd := by unfold State.finishBlock; rfl
@[simp] theorem State.finishBlock_status (st : State) :
    st.finishBlock.status = st.status := by unfold State.finishBlock; rfl
@[simp] theorem State.finishBlock_busy (st : State) :
    st.finishBlock.busy = st.busy := by unfold State.finishBlock; rfl
@[simp] theorem State.finishBlock_mem_key (st : State) :
    st.finishBlock.mem.key = st.mem.key := by unfold State.finishBlock; rfl
@[simp] theorem State.finishBlock_mem_nonce (st : State) :
    st.finishBlock.mem.nonce = st.mem.nonce := by unfold State.finishBlock; rfl
@[simp] theorem State.finishBlock_mem_data (st : State) :
    st.finishBlock.mem.data = st.mem.data := by unfold State.finishBlock; rfl
@[simp] theorem State.finishBlock_mem_ks (st : State) :
    st.finishBlock.mem.ks = bytesOfWords (feedForward st.x st.s) := by unfold State.finishBlock; rfl
@[simp] theorem State.finishBlock_mem_out (st : State) :
    st.finishBlock.mem.out = st.mem.out := by unfold State.finishBlock; rfl
@[simp] theorem State.finishBlock_mem_outSize (st : State) :
    st.finishBlock.mem.outSize = st.mem.outSize := by unfold State.finishBlock; rfl
@[simp] theorem State.finishBlock_req (st : State) :
    st.finishBlock.req = st.req := by unfold State.finishBlock; rfl
@[simp] theorem State.finishBlock_rsp (st : State) :
    st.finishBlock.rsp = st.rsp := by unfold State.finishBlock; rfl
@[simp] theorem State.finishBlock_params (st : State) :
    st.finishBlock.params = st.params := by unfold State.finishBlock; rfl

@[simp] theorem raiseFailure_x (f : Failure) (st : State) :
    (raiseFailure f st).x = st.x := by unfold raiseFailure; rfl
@[simp] theorem raiseFailure_s (f : Failure) (st : State) :
    (raiseFailure f st).s = st.s := by unfold raiseFailure; rfl
@[simp] theorem raiseFailure_dr (f : Failure) (st : State) :
    (raiseFailure f st).dr = st.dr := by unfold raiseFailure; rfl
@[simp] theorem raiseFailure_qi (f : Failure) (st : State) :
    (raiseFailure f st).qi = st.qi := by unfold raiseFailure; rfl
@[simp] theorem raiseFailure_ctr (f : Failure) (st : State) :
    (raiseFailure f st).ctr = st.ctr := by unfold raiseFailure; rfl
@[simp] theorem raiseFailure_off (f : Failure) (st : State) :
    (raiseFailure f st).off = st.off := by unfold raiseFailure; rfl
@[simp] theorem raiseFailure_ctr0 (f : Failure) (st : State) :
    (raiseFailure f st).ctr0 = st.ctr0 := by unfold raiseFailure; rfl
@[simp] theorem raiseFailure_klen (f : Failure) (st : State) :
    (raiseFailure f st).klen = st.klen := by unfold raiseFailure; rfl
@[simp] theorem raiseFailure_nlen (f : Failure) (st : State) :
    (raiseFailure f st).nlen = st.nlen := by unfold raiseFailure; rfl
@[simp] theorem raiseFailure_len (f : Failure) (st : State) :
    (raiseFailure f st).len = st.len := by unfold raiseFailure; rfl
@[simp] theorem raiseFailure_pa (f : Failure) (st : State) :
    (raiseFailure f st).pa = st.pa := by unfold raiseFailure; rfl
@[simp] theorem raiseFailure_pb (f : Failure) (st : State) :
    (raiseFailure f st).pb = st.pb := by unfold raiseFailure; rfl
@[simp] theorem raiseFailure_pc (f : Failure) (st : State) :
    (raiseFailure f st).pc = st.pc := by unfold raiseFailure; rfl
@[simp] theorem raiseFailure_pd (f : Failure) (st : State) :
    (raiseFailure f st).pd = st.pd := by unfold raiseFailure; rfl
@[simp] theorem raiseFailure_status (f : Failure) (st : State) :
    (raiseFailure f st).status = f.toStatus := by unfold raiseFailure; rfl
@[simp] theorem raiseFailure_busy (f : Failure) (st : State) :
    (raiseFailure f st).busy = false := by unfold raiseFailure; rfl
@[simp] theorem raiseFailure_mem (f : Failure) (st : State) :
    (raiseFailure f st).mem = st.mem := by unfold raiseFailure; rfl
@[simp] theorem raiseFailure_req (f : Failure) (st : State) :
    (raiseFailure f st).req = st.req := by unfold raiseFailure; rfl
@[simp] theorem raiseFailure_rsp (f : Failure) (st : State) :
    (raiseFailure f st).rsp = some [f.toStatus.code] := by unfold raiseFailure; rfl
@[simp] theorem raiseFailure_params (f : Failure) (st : State) :
    (raiseFailure f st).params = st.params := by unfold raiseFailure; rfl

@[simp] theorem respondOk_x (st : State) :
    (respondOk st).x = st.x := by unfold respondOk; rfl
@[simp] theorem respondOk_s (st : State) :
    (respondOk st).s = st.s := by unfold respondOk; rfl
@[simp] theorem respondOk_dr (st : State) :
    (respondOk st).dr = st.dr := by unfold respondOk; rfl
@[simp] theorem respondOk_qi (st : State) :
    (respondOk st).qi = st.qi := by unfold respondOk; rfl
@[simp] theorem respondOk_ctr (st : State) :
    (respondOk st).ctr = st.ctr := by unfold respondOk; rfl
@[simp] theorem respondOk_off (st : State) :
    (respondOk st).off = st.off := by unfold respondOk; rfl
@[simp] theorem respondOk_ctr0 (st : State) :
    (respondOk st).ctr0 = st.ctr0 := by unfold respondOk; rfl
@[simp] theorem respondOk_klen (st : State) :
    (respondOk st).klen = st.klen := by unfold respondOk; rfl
@[simp] theorem respondOk_nlen (st : State) :
    (respondOk st).nlen = st.nlen := by unfold respondOk; rfl
@[simp] theorem respondOk_len (st : State) :
    (respondOk st).len = st.len := by unfold respondOk; rfl
@[simp] theorem respondOk_pa (st : State) :
    (respondOk st).pa = st.pa := by unfold respondOk; rfl
@[simp] theorem respondOk_pb (st : State) :
    (respondOk st).pb = st.pb := by unfold respondOk; rfl
@[simp] theorem respondOk_pc (st : State) :
    (respondOk st).pc = st.pc := by unfold respondOk; rfl
@[simp] theorem respondOk_pd (st : State) :
    (respondOk st).pd = st.pd := by unfold respondOk; rfl
@[simp] theorem respondOk_status (st : State) :
    (respondOk st).status = .ok := by unfold respondOk; rfl
@[simp] theorem respondOk_busy (st : State) :
    (respondOk st).busy = false := by unfold respondOk; rfl
@[simp] theorem respondOk_mem (st : State) :
    (respondOk st).mem = st.mem := by unfold respondOk; rfl
@[simp] theorem respondOk_req (st : State) :
    (respondOk st).req = st.req := by unfold respondOk; rfl
@[simp] theorem respondOk_rsp (st : State) :
    (respondOk st).rsp = some (Status.ok.code :: st.mem.out) := by unfold respondOk; rfl
@[simp] theorem respondOk_params (st : State) :
    (respondOk st).params = st.params := by unfold respondOk; rfl

/-- The state with OUT holding `v`, of size `n`: what filling a fresh OUT leaves. -/
def State.withOut (n : Nat) (v : List Byte) (st : State) : State :=
  { st with mem := { st.mem with out := v, outSize := n } }

@[simp] theorem State.withOut_x (n : Nat) (v : List Byte) (st : State) :
    (st.withOut n v).x = st.x := by unfold State.withOut; rfl
@[simp] theorem State.withOut_s (n : Nat) (v : List Byte) (st : State) :
    (st.withOut n v).s = st.s := by unfold State.withOut; rfl
@[simp] theorem State.withOut_dr (n : Nat) (v : List Byte) (st : State) :
    (st.withOut n v).dr = st.dr := by unfold State.withOut; rfl
@[simp] theorem State.withOut_qi (n : Nat) (v : List Byte) (st : State) :
    (st.withOut n v).qi = st.qi := by unfold State.withOut; rfl
@[simp] theorem State.withOut_ctr (n : Nat) (v : List Byte) (st : State) :
    (st.withOut n v).ctr = st.ctr := by unfold State.withOut; rfl
@[simp] theorem State.withOut_off (n : Nat) (v : List Byte) (st : State) :
    (st.withOut n v).off = st.off := by unfold State.withOut; rfl
@[simp] theorem State.withOut_ctr0 (n : Nat) (v : List Byte) (st : State) :
    (st.withOut n v).ctr0 = st.ctr0 := by unfold State.withOut; rfl
@[simp] theorem State.withOut_klen (n : Nat) (v : List Byte) (st : State) :
    (st.withOut n v).klen = st.klen := by unfold State.withOut; rfl
@[simp] theorem State.withOut_nlen (n : Nat) (v : List Byte) (st : State) :
    (st.withOut n v).nlen = st.nlen := by unfold State.withOut; rfl
@[simp] theorem State.withOut_len (n : Nat) (v : List Byte) (st : State) :
    (st.withOut n v).len = st.len := by unfold State.withOut; rfl
@[simp] theorem State.withOut_pa (n : Nat) (v : List Byte) (st : State) :
    (st.withOut n v).pa = st.pa := by unfold State.withOut; rfl
@[simp] theorem State.withOut_pb (n : Nat) (v : List Byte) (st : State) :
    (st.withOut n v).pb = st.pb := by unfold State.withOut; rfl
@[simp] theorem State.withOut_pc (n : Nat) (v : List Byte) (st : State) :
    (st.withOut n v).pc = st.pc := by unfold State.withOut; rfl
@[simp] theorem State.withOut_pd (n : Nat) (v : List Byte) (st : State) :
    (st.withOut n v).pd = st.pd := by unfold State.withOut; rfl
@[simp] theorem State.withOut_status (n : Nat) (v : List Byte) (st : State) :
    (st.withOut n v).status = st.status := by unfold State.withOut; rfl
@[simp] theorem State.withOut_busy (n : Nat) (v : List Byte) (st : State) :
    (st.withOut n v).busy = st.busy := by unfold State.withOut; rfl
@[simp] theorem State.withOut_mem_key (n : Nat) (v : List Byte) (st : State) :
    (st.withOut n v).mem.key = st.mem.key := by unfold State.withOut; rfl
@[simp] theorem State.withOut_mem_nonce (n : Nat) (v : List Byte) (st : State) :
    (st.withOut n v).mem.nonce = st.mem.nonce := by unfold State.withOut; rfl
@[simp] theorem State.withOut_mem_data (n : Nat) (v : List Byte) (st : State) :
    (st.withOut n v).mem.data = st.mem.data := by unfold State.withOut; rfl
@[simp] theorem State.withOut_mem_ks (n : Nat) (v : List Byte) (st : State) :
    (st.withOut n v).mem.ks = st.mem.ks := by unfold State.withOut; rfl
@[simp] theorem State.withOut_mem_out (n : Nat) (v : List Byte) (st : State) :
    (st.withOut n v).mem.out = v := by unfold State.withOut; rfl
@[simp] theorem State.withOut_mem_outSize (n : Nat) (v : List Byte) (st : State) :
    (st.withOut n v).mem.outSize = n := by unfold State.withOut; rfl
@[simp] theorem State.withOut_req (n : Nat) (v : List Byte) (st : State) :
    (st.withOut n v).req = st.req := by unfold State.withOut; rfl
@[simp] theorem State.withOut_rsp (n : Nat) (v : List Byte) (st : State) :
    (st.withOut n v).rsp = st.rsp := by unfold State.withOut; rfl
@[simp] theorem State.withOut_params (n : Nat) (v : List Byte) (st : State) :
    (st.withOut n v).params = st.params := by unfold State.withOut; rfl

end Sys2Proof.Machine
end

