-- ==== Sys2Proof/Laws/Ops.lean ====
section
/-! SUPPORT. What the shared operations of Machine/Ops.lean can do: sequencing, buffer accesses, buffer sizes. -/

namespace Sys2Proof.Machine

/-! `thenRun`. -/

@[simp] theorem thenRun_fault (e : Fault) (f : State → Result) : thenRun (.fault e) f = .fault e := rfl

@[simp] theorem thenRun_refused (e : Refusal) (f : State → Result) : thenRun (.refused e) f = .refused e := rfl

/-- A running operation goes on. -/
theorem thenRun_running {s : State} (h : s.busy = true) (f : State → Result) : thenRun (.next s) f = f s := by
  simp [thenRun, h]

/-- An operation that has ended does not go on (R174). -/
theorem thenRun_ended {s : State} (h : s.busy = false) (f : State → Result) : thenRun (.next s) f = .next s := by
  simp [thenRun, h]

/-- What a sequence of two parts can answer as a next state: the first ended the operation, or the second answered it. -/
theorem thenRun_cases {r : Result} {f : State → Result} {t : State} (h : thenRun r f = .next t) :
    (∃ s, r = .next s ∧ s.busy = false ∧ t = s) ∨ (∃ s, r = .next s ∧ s.busy = true ∧ f s = .next t) := by
  cases r with
  | next s =>
    cases hb : s.busy with
    | true => exact .inr ⟨s, rfl, hb, by rwa [thenRun_running hb] at h⟩
    | false =>
      rw [thenRun_ended hb] at h
      exact .inl ⟨s, rfl, hb, by injection h with h; exact h.symm⟩
  | fault e => simp at h
  | refused e => simp at h

/-! Buffers. -/

/-- A read inside a readable buffer answers its bytes. -/
theorem Memory.read_inside {m : Memory} {b : Buf} {off n : Nat} (hb : b.readable = true)
    (h : off + n ≤ (m.bytes b).length) : m.read b off n = some (((m.bytes b).drop off).take n) := by
  simp [Memory.read, hb, h]

/-- All a read can answer: the bytes asked for, of a readable buffer they lie in. -/
theorem Memory.read_cases {m : Memory} {b : Buf} {off n : Nat} {v : List Byte} (h : m.read b off n = some v) :
    b.readable = true ∧ off + n ≤ (m.bytes b).length ∧ v = ((m.bytes b).drop off).take n := by
  unfold Memory.read at h
  split at h
  · next hc => exact ⟨hc.1, hc.2, by injection h with h; exact h.symm⟩
  · cases h

/-- OUT is write-only to the CORE (R27). -/
theorem Memory.read_out (m : Memory) (off n : Nat) : m.read .out off n = none := by
  simp [Memory.read, Buf.readable]

/-- What a read of a buffer answers depends on that buffer's bytes only. -/
theorem Memory.read_congr {m m' : Memory} {b : Buf} (h : m'.bytes b = m.bytes b) (off n : Nat) :
    m'.read b off n = m.read b off n := by
  simp only [Memory.read, h]

/-- The whole of KS is readable. -/
theorem Memory.read_ks {m : Memory} {n : Nat} (h : n ≤ 64) : m.read .ks 0 n = some (m.ks.toList.take n) := by
  rw [Memory.read_inside rfl (by simpa [Memory.bytes] using h)]
  simp [Memory.bytes]

/-- The bytes of a vector, taken back as a vector. -/
@[simp] theorem exactBytes_toList {n : Nat} (v : Vector Byte n) : exactBytes n v.toList = some v := by
  rcases v with ⟨⟨l⟩, h⟩
  simpa [exactBytes, Vector.toList] using h

/-- All `exactBytes` can answer. -/
theorem exactBytes_cases {n : Nat} {l : List Byte} {v : Vector Byte n} (h : exactBytes n l = some v) : v.toList = l := by
  unfold exactBytes at h
  split at h
  · injection h with h; simp [← h]
  · cases h

/-- A byte string of the right length is the byte string of a vector. -/
theorem exists_vector_of_length {n : Nat} {l : List Byte} (h : l.length = n) : ∃ v : Vector Byte n, v.toList = l :=
  ⟨⟨l.toArray, by simpa using h⟩, by simp⟩

/-- A buffer that holds the bytes of a vector reads whole as that vector. -/
theorem Memory.readExact_of_bytes {n : Nat} {m : Memory} {b : Buf} (hb : b.readable = true) {v : Vector Byte n}
    (h : m.bytes b = v.toList) : m.readExact b n = some v := by
  unfold Memory.readExact
  rw [Memory.read_inside hb (by simp [h])]
  simp [h, List.take_of_length_le]

/-- Appending to OUT inside its size. -/
theorem Memory.write_out_append {m : Memory} {v : List Byte} (h : m.out.length + v.length ≤ m.outSize) :
    m.write .out m.out.length v = some { m with out := m.out ++ v } := by
  simp [Memory.write, h]

/-- All a write can answer: OUT is changed and nothing else, inside its size. -/
theorem Memory.write_cases {m m' : Memory} {b : Buf} {off : Nat} {v : List Byte} (h : m.write b off v = some m') :
    b = .out ∧ off ≤ m.out.length ∧ off + v.length ≤ m.outSize ∧
      m' = { m with out := m.out.take off ++ v ++ m.out.drop (off + v.length) } := by
  cases b <;> simp only [Memory.write, reduceCtorEq] at h
  split at h
  · next hc => exact ⟨rfl, hc.1, hc.2, by injection h with h; exact h.symm⟩
  · cases h

/-- R55: what is read back at an offset after a write, inside the bytes written. -/
theorem Memory.write_out_bytes {m m' : Memory} {off : Nat} {v : List Byte} (h : m.write .out off v = some m') :
    ((m'.bytes .out).drop off).take v.length = v := by
  obtain ⟨-, h1, -, rfl⟩ := Memory.write_cases h
  simp [Memory.bytes, Nat.min_eq_left h1]

/-- A write leaves every readable buffer alone. -/
theorem Memory.write_read {m m' : Memory} {b b' : Buf} {off off' n : Nat} {v : List Byte}
    (h : m.write b off v = some m') : m'.read b' off' n = m.read b' off' n := by
  obtain ⟨-, -, -, rfl⟩ := Memory.write_cases h
  cases b' <;> simp [Memory.read, Memory.bytes, Buf.readable]

/-- Filling a fresh OUT of the right size from offset 0. -/
theorem State.writeOut_alloc {n : Nat} {v : List Byte} (h : v.length ≤ n) (s : State) :
    (s.allocOut n).writeOut 0 v = .next (s.withOut n v) := by
  have hw := Memory.write_out_append (m := (s.allocOut n).mem) (v := v) (by simpa using h)
  simp only [State.allocOut_mem_out, List.length_nil] at hw
  unfold State.writeOut
  rw [hw]
  simp [State.allocOut, State.withOut]

/-! Buffer sizes are kept by every buffer operation (`Memory.wf`). -/

theorem Memory.wf_iff (s : State) : Memory.wf s = true ↔
    s.mem.key.length = s.klen ∧ s.mem.nonce.length = s.nlen ∧ s.mem.data.length = s.len ∧
      s.mem.out.length ≤ s.mem.outSize := by
  simp [Memory.wf, and_assoc]

theorem Memory.wf_allocOut {s : State} (n : Nat) (h : Memory.wf s = true) : Memory.wf (s.allocOut n) = true := by
  simp only [Memory.wf_iff] at h ⊢
  simpa using ⟨h.1, h.2.1, h.2.2.1⟩

theorem Memory.wf_latchKeyNonce {s : State} (k n : List Byte) (c : Word) (h : Memory.wf s = true) :
    Memory.wf (s.latchKeyNonce k n c) = true := by
  simp only [Memory.wf_iff] at h ⊢
  simpa using ⟨h.2.2.1, h.2.2.2⟩

theorem Memory.wf_latchData {s : State} (d : List Byte) (h : Memory.wf s = true) :
    Memory.wf (s.latchData d) = true := by
  simp only [Memory.wf_iff] at h ⊢
  simpa using ⟨h.1, h.2.1, h.2.2.2⟩

theorem Memory.wf_finishBlock {s : State} (h : Memory.wf s = true) : Memory.wf s.finishBlock = true := by
  simp only [Memory.wf_iff] at h ⊢
  simpa using h

theorem Memory.wf_writeOut {s t : State} {off : Nat} {v : List Byte} (h : Memory.wf s = true)
    (ht : s.writeOut off v = .next t) : Memory.wf t = true := by
  unfold State.writeOut at ht
  split at ht
  · next m hm =>
    injection ht with ht
    obtain ⟨-, h1, h2, rfl⟩ := Memory.write_cases hm
    simp only [Memory.wf_iff] at h ⊢
    subst ht
    refine ⟨h.1, h.2.1, h.2.2.1, ?_⟩
    simp only [List.length_append, List.length_take, List.length_drop]
    omega
  · cases ht

/-- `Memory.wf` of the state after reset. -/
theorem Memory.wf_reset : Memory.wf State.reset = true := by decide

end Sys2Proof.Machine
end

