-- ==== Sys2Proof/Laws/Sequencer.lean ====
section
/-! SUPPORT. The block function on the registers: what its sequencer and its steps do to the state (10_state R23, 41_block R131). -/

namespace Sys2Proof.Machine

/-! The sequencer of R23 and the register form of BLOCKFN. -/

/-- The working state after `n` quarter-rounds of the schedule, from place `i` of it on. -/
def quarterRounds : Nat → Nat → Vector Word 16 → Vector Word 16
  | 0, _, x => x
  | n + 1, i, x => quarterRounds n (i + 1) (qrGroup x (sched[i % 8]'(Nat.mod_lt i (by decide))))

/-- The sequencer at quarter-round `i` of a block (`i` = 80 is the end of the rounds). -/
def seqAt (i : Nat) (s : State) : State :=
  { s with dr := Fin.ofNat 11 (i / 8), qi := Fin.ofNat 8 i }

theorem seqAt_zero (s : State) : seqAt 0 s = s.startRounds := rfl

/-- One quarter-round step at place `i`: QRAT at the group of that place, and the sequencer at place `i + 1`. -/
theorem quarterStep_seqAt {i : Nat} (hi : i < 80) (s : State) :
    (seqAt i s).quarterStep = seqAt (i + 1) { s with x := qrGroup s.x (sched[i % 8]'(Nat.mod_lt i (by decide))) } := by
  have hq : (Fin.ofNat 8 i : Fin 8).val = i % 8 := rfl
  have hd : (Fin.ofNat 11 (i / 8) : Fin 11).val = i / 8 := Nat.mod_eq_of_lt (by omega)
  unfold State.quarterStep State.advance seqAt
  by_cases h7 : i % 8 = 7
  · have : (Fin.ofNat 8 i : Fin 8) = 7 := Fin.ext (by simpa using h7)
    simp only [this, if_true, State.mk.injEq, true_and, and_true]
    refine ⟨?_, ?_, ?_⟩
    · simp [h7]
    · apply Fin.ext; simp [Fin.val_add]; omega
    · apply Fin.ext; simp; omega
  · have : (Fin.ofNat 8 i : Fin 8) ≠ 7 := fun h => h7 (by simpa using congrArg Fin.val h)
    simp only [this, if_false, State.mk.injEq, true_and, and_true]
    refine ⟨rfl, ?_, ?_⟩
    · apply Fin.ext; simp; omega
    · apply Fin.ext; simp [Fin.val_add]

/-- The rounds from place `i` on, when the steps left are exactly those to the end. -/
theorem runRounds_seqAt (n : Nat) : ∀ i, i + n = 80 → ∀ s : State,
    runRounds n (seqAt i s) = seqAt 80 { s with x := quarterRounds n i s.x } := by
  induction n with
  | zero => intro i hi s; obtain rfl : i = 80 := by omega
            rfl
  | succ n ih =>
    intro i hi s
    have hdr : (seqAt i s).dr < 10 := by
      show (Fin.ofNat 11 (i / 8) : Fin 11) < 10
      rw [Fin.lt_def]; simp; omega
    unfold runRounds
    rw [if_pos hdr, quarterStep_seqAt (by omega), ih (i + 1) (by omega)]
    rfl

/-- Eight quarter-rounds from the start of a double round are a double round. -/
theorem quarterRounds_eight (n k : Nat) (x : Vector Word 16) :
    quarterRounds (n + 8) (8 * k) x = quarterRounds n (8 * (k + 1)) (doubleRound x) := by
  have h : ∀ j, j < 8 → (8 * k + j) % 8 = j := by intro j hj; omega
  simp only [quarterRounds, Nat.add_assoc, Nat.reduceAdd, Nat.mul_mod_right, Nat.mul_add, Nat.mul_one]
  simp only [h 1 (by decide), h 2 (by decide), h 3 (by decide), h 4 (by decide), h 5 (by decide), h 6 (by decide), h 7 (by decide)]
  rfl

theorem quarterRounds_double (n : Nat) : ∀ k x, quarterRounds (8 * n) (8 * k) x = doubleRounds n x := by
  induction n with
  | zero => intro k x; rfl
  | succ n ih => intro k x; rw [Nat.mul_succ, quarterRounds_eight, ih]; rfl

/-- What the rounds do to the state: X is ROUNDS of X, the sequencer stands at its end, nothing else changes. -/
theorem runRounds_eq (s : State) :
    runRounds 80 s.startRounds = { s with x := rounds s.x, dr := 10, qi := 0 } := by
  rw [← seqAt_zero, runRounds_seqAt 80 0 rfl, quarterRounds_double 10 0]
  rfl

/-- All that `KS <- BLOCKFN(...)` does to the state (R127, R131). -/
theorem runBlock_eq (key : Vector Byte 32) (c : Word) (nonce : Vector Byte 12) (s : State) :
    s.runBlock key c nonce =
      { s with x := rounds (initWords key c nonce), s := initWords key c nonce, dr := 10, qi := 0,
               mem := { s.mem with ks := blockFn key c nonce } } := by
  unfold State.runBlock
  rw [runRounds_eq]
  rfl

@[simp] theorem State.runBlock_x (key : Vector Byte 32) (c : Word) (nonce : Vector Byte 12)
    (st : State) : (st.runBlock key c nonce).x = rounds (initWords key c nonce) := by rw [runBlock_eq]
@[simp] theorem State.runBlock_s (key : Vector Byte 32) (c : Word) (nonce : Vector Byte 12)
    (st : State) : (st.runBlock key c nonce).s = initWords key c nonce := by rw [runBlock_eq]
@[simp] theorem State.runBlock_dr (key : Vector Byte 32) (c : Word) (nonce : Vector Byte 12)
    (st : State) : (st.runBlock key c nonce).dr = 10 := by rw [runBlock_eq]
@[simp] theorem State.runBlock_qi (key : Vector Byte 32) (c : Word) (nonce : Vector Byte 12)
    (st : State) : (st.runBlock key c nonce).qi = 0 := by rw [runBlock_eq]
@[simp] theorem State.runBlock_ctr (key : Vector Byte 32) (c : Word) (nonce : Vector Byte 12)
    (st : State) : (st.runBlock key c nonce).ctr = st.ctr := by rw [runBlock_eq]
@[simp] theorem State.runBlock_off (key : Vector Byte 32) (c : Word) (nonce : Vector Byte 12)
    (st : State) : (st.runBlock key c nonce).off = st.off := by rw [runBlock_eq]
@[simp] theorem State.runBlock_ctr0 (key : Vector Byte 32) (c : Word) (nonce : Vector Byte 12)
    (st : State) : (st.runBlock key c nonce).ctr0 = st.ctr0 := by rw [runBlock_eq]
@[simp] theorem State.runBlock_klen (key : Vector Byte 32) (c : Word) (nonce : Vector Byte 12)
    (st : State) : (st.runBlock key c nonce).klen = st.klen := by rw [runBlock_eq]
@[simp] theorem State.runBlock_nlen (key : Vector Byte 32) (c : Word) (nonce : Vector Byte 12)
    (st : State) : (st.runBlock key c nonce).nlen = st.nlen := by rw [runBlock_eq]
@[simp] theorem State.runBlock_len (key : Vector Byte 32) (c : Word) (nonce : Vector Byte 12)
    (st : State) : (st.runBlock key c nonce).len = st.len := by rw [runBlock_eq]
@[simp] theorem State.runBlock_pa (key : Vector Byte 32) (c : Word) (nonce : Vector Byte 12)
    (st : State) : (st.runBlock key c nonce).pa = st.pa := by rw [runBlock_eq]
@[simp] theorem State.runBlock_pb (key : Vector Byte 32) (c : Word) (nonce : Vector Byte 12)
    (st : State) : (st.runBlock key c nonce).pb = st.pb := by rw [runBlock_eq]
@[simp] theorem State.runBlock_pc (key : Vector Byte 32) (c : Word) (nonce : Vector Byte 12)
    (st : State) : (st.runBlock key c nonce).pc = st.pc := by rw [runBlock_eq]
@[simp] theorem State.runBlock_pd (key : Vector Byte 32) (c : Word) (nonce : Vector Byte 12)
    (st : State) : (st.runBlock key c nonce).pd = st.pd := by rw [runBlock_eq]
@[simp] theorem State.runBlock_status (key : Vector Byte 32) (c : Word) (nonce : Vector Byte 12)
    (st : State) : (st.runBlock key c nonce).status = st.status := by rw [runBlock_eq]
@[simp] theorem State.runBlock_busy (key : Vector Byte 32) (c : Word) (nonce : Vector Byte 12)
    (st : State) : (st.runBlock key c nonce).busy = st.busy := by rw [runBlock_eq]
@[simp] theorem State.runBlock_mem_key (key : Vector Byte 32) (c : Word) (nonce : Vector Byte 12)
    (st : State) : (st.runBlock key c nonce).mem.key = st.mem.key := by rw [runBlock_eq]
@[simp] theorem State.runBlock_mem_nonce (key : Vector Byte 32) (c : Word) (nonce : Vector Byte 12)
    (st : State) : (st.runBlock key c nonce).mem.nonce = st.mem.nonce := by rw [runBlock_eq]
@[simp] theorem State.runBlock_mem_data (key : Vector Byte 32) (c : Word) (nonce : Vector Byte 12)
    (st : State) : (st.runBlock key c nonce).mem.data = st.mem.data := by rw [runBlock_eq]
@[simp] theorem State.runBlock_mem_ks (key : Vector Byte 32) (c : Word) (nonce : Vector Byte 12)
    (st : State) : (st.runBlock key c nonce).mem.ks = blockFn key c nonce := by rw [runBlock_eq]
@[simp] theorem State.runBlock_mem_out (key : Vector Byte 32) (c : Word) (nonce : Vector Byte 12)
    (st : State) : (st.runBlock key c nonce).mem.out = st.mem.out := by rw [runBlock_eq]
@[simp] theorem State.runBlock_mem_outSize (key : Vector Byte 32) (c : Word) (nonce : Vector Byte 12)
    (st : State) : (st.runBlock key c nonce).mem.outSize = st.mem.outSize := by rw [runBlock_eq]
@[simp] theorem State.runBlock_req (key : Vector Byte 32) (c : Word) (nonce : Vector Byte 12)
    (st : State) : (st.runBlock key c nonce).req = st.req := by rw [runBlock_eq]
@[simp] theorem State.runBlock_rsp (key : Vector Byte 32) (c : Word) (nonce : Vector Byte 12)
    (st : State) : (st.runBlock key c nonce).rsp = st.rsp := by rw [runBlock_eq]
@[simp] theorem State.runBlock_params (key : Vector Byte 32) (c : Word) (nonce : Vector Byte 12)
    (st : State) : (st.runBlock key c nonce).params = st.params := by rw [runBlock_eq]

/-- BLOCKFN from the KEY and NONCE buffers, when they have their lengths. -/
theorem runBlockFromBuffers_eq {key : Vector Byte 32} {nonce : Vector Byte 12} (c : Word) {s : State}
    (hk : s.mem.key = key.toList) (hn : s.mem.nonce = nonce.toList) :
    s.runBlockFromBuffers c = .next (s.runBlock key c nonce) := by
  unfold State.runBlockFromBuffers
  rw [Memory.readExact_of_bytes (m := s.mem) (b := .key) (v := key) rfl hk,
    Memory.readExact_of_bytes (m := s.mem) (b := .nonce) (v := nonce) rfl hn]

end Sys2Proof.Machine
end

