-- ==== Sys2Proof/Laws/Driver.lean ====
section
/-! SUPPORT. The stream driver: what it keeps, one iteration, the loop under either policy (42_stream R142, R145). -/

namespace Sys2Proof.Machine

/-! The stream driver. -/

/-- What no step of the driver changes. -/
structure DriverKeeps (s t : State) : Prop where
  pa : t.pa = s.pa
  pb : t.pb = s.pb
  pc : t.pc = s.pc
  pd : t.pd = s.pd
  ctr0 : t.ctr0 = s.ctr0
  klen : t.klen = s.klen
  nlen : t.nlen = s.nlen
  len : t.len = s.len
  req : t.req = s.req
  params : t.params = s.params
  key : t.mem.key = s.mem.key
  nonce : t.mem.nonce = s.mem.nonce
  data : t.mem.data = s.mem.data
  outSize : t.mem.outSize = s.mem.outSize

theorem DriverKeeps.refl (s : State) : DriverKeeps s s := by constructor <;> rfl

theorem DriverKeeps.trans {s t u : State} (h : DriverKeeps s t) (h' : DriverKeeps t u) : DriverKeeps s u := by
  constructor
  · rw [h'.pa, h.pa]
  · rw [h'.pb, h.pb]
  · rw [h'.pc, h.pc]
  · rw [h'.pd, h.pd]
  · rw [h'.ctr0, h.ctr0]
  · rw [h'.klen, h.klen]
  · rw [h'.nlen, h.nlen]
  · rw [h'.len, h.len]
  · rw [h'.req, h.req]
  · rw [h'.params, h.params]
  · rw [h'.key, h.key]
  · rw [h'.nonce, h.nonce]
  · rw [h'.data, h.data]
  · rw [h'.outSize, h.outSize]

theorem raiseFailure_keeps (f : Failure) (s : State) : DriverKeeps s (raiseFailure f s) := by constructor <;> rfl

theorem runBlockFromBuffers_keeps {c : Word} {s t : State} (h : s.runBlockFromBuffers c = .next t) :
    DriverKeeps s t := by
  unfold State.runBlockFromBuffers at h
  split at h
  · injection h with h
    rw [← h, runBlock_eq]
    constructor <;> rfl
  · cases h

theorem writeOut_keeps {off : Nat} {v : List Byte} {s t : State} (h : s.writeOut off v = .next t) :
    DriverKeeps s t := by
  unfold State.writeOut at h
  split at h
  · next m hm =>
    obtain ⟨-, -, -, rfl⟩ := Memory.write_cases hm
    injection h with h
    subst h
    constructor <;> rfl
  · cases h

theorem xorStep_keeps {n : Nat} {s t : State} (h : s.xorStep n = .next t) : DriverKeeps s t := by
  unfold State.xorStep at h
  split at h
  · exact writeOut_keeps h
  · cases h

theorem advanceDriver_keeps (n : Nat) (s : State) : DriverKeeps s (s.advanceDriver n) := by
  unfold State.advanceDriver
  dsimp only
  split
  · constructor <;> rfl
  · split <;> constructor <;> rfl

theorem driverBlock_keeps {s t : State} (h : s.driverBlock = .next t) : DriverKeeps s t := by
  unfold State.driverBlock at h
  split at h
  · injection h with h
    exact h ▸ raiseFailure_keeps _ s
  · obtain ⟨u, hu, -, rfl⟩ | ⟨u, hu, -, h⟩ := thenRun_cases h
    · exact runBlockFromBuffers_keeps hu
    · refine (runBlockFromBuffers_keeps hu).trans ?_
      obtain ⟨v, hv, -, rfl⟩ | ⟨v, hv, -, h⟩ := thenRun_cases h
      · exact xorStep_keeps hv
      · injection h with h
        exact (xorStep_keeps hv).trans (h ▸ advanceDriver_keeps _ v)

theorem driverLoop_keeps {n : Nat} : ∀ {s t : State}, driverLoop n s = .next t → DriverKeeps s t := by
  induction n with
  | zero => intro s t h; injection h with h; exact h ▸ DriverKeeps.refl s
  | succ n ih =>
    intro s t h
    unfold driverLoop at h
    split at h
    · obtain ⟨u, hu, -, rfl⟩ | ⟨u, hu, -, h⟩ := thenRun_cases h
      · exact driverBlock_keeps hu
      · exact (driverBlock_keeps hu).trans (ih h)
    · injection h with h; exact h ▸ DriverKeeps.refl s

/-- R142: a running driver at the start of block `j`: `OFF = 64 j`, `CTR = c + j`, the first `OFF` bytes of the output
written. -/
structure Driving (key : Vector Byte 32) (c : Word) (nonce : Vector Byte 12) (data : List Byte) (j : Nat)
    (s : State) : Prop where
  busy : s.busy = true
  key_eq : s.mem.key = key.toList
  nonce_eq : s.mem.nonce = nonce.toList
  data_eq : s.mem.data = data
  len_eq : s.len = data.length
  outSize_eq : s.mem.outSize = data.length
  off_eq : s.off = min (64 * j) data.length
  ctr_eq : s.ctr = BitVec.ofNat 33 (c.toNat + j)
  out_eq : s.mem.out = (streamOutput key c nonce data).take (64 * j)

@[simp] theorem streamOutput_length (key : Vector Byte 32) (c : Word) (nonce : Vector Byte 12) (data : List Byte) :
    (streamOutput key c nonce data).length = data.length := by
  simp [streamOutput]

/-- The XOR of block `j` of the data with keystream block `c + j` is block `j` of the output. -/
theorem xorBytes_block (key : Vector Byte 32) (c : Word) (nonce : Vector Byte 12) (data : List Byte) (j : Nat) :
    xorBytes ((data.drop (64 * j)).take (min 64 (data.length - 64 * j)))
        ((blockFn key (c + BitVec.ofNat 32 j) nonce).toList.take (min 64 (data.length - 64 * j))) =
      ((streamOutput key c nonce data).drop (64 * j)).take 64 := by
  apply List.ext_getElem
  · simp [xorBytes]
  · intro i h1 h2
    simp only [List.length_take, List.length_drop, streamOutput_length] at h2
    have hi : (64 * j + i) / 64 = j := by omega
    have hm : (64 * j + i) % 64 = i := by omega
    simp [xorBytes, streamOutput, keystreamByte, hi, hm]

theorem counterPast_ofNat {n : Nat} (h : n ≤ 2 ^ 32) : counterPast (BitVec.ofNat 33 n) = decide (n = 2 ^ 32) := by
  unfold counterPast
  rw [decide_eq_decide, BitVec.lt_def]
  simp only [BitVec.toNat_ofNat]
  omega

/-- One iteration of the loop when a block is left and its counter is in range (R142). -/
theorem driverBlock_eq {key : Vector Byte 32} {c : Word} {nonce : Vector Byte 12} {data : List Byte} {j : Nat} {s : State}
    (h : Driving key c nonce data j s) (hj : 64 * j < data.length) (hc : c.toNat + j < 2 ^ 32) :
    ∃ t, Driving key c nonce data (j + 1) t ∧ t.params = s.params ∧
      s.driverBlock =
        .next (if s.params.overflowPolicy = .eager ∧ c.toNat + (j + 1) = 2 ^ 32 then raiseFailure .counterOverflow t
          else t) := by
  have hoff : s.off = 64 * j := by rw [h.off_eq]; omega
  have hpast : counterPast s.ctr = false := by
    rw [h.ctr_eq, counterPast_ofNat (by omega), decide_eq_false_iff_not]; omega
  have hctr : s.ctr.setWidth 32 = c + BitVec.ofNat 32 j := by
    rw [h.ctr_eq]; apply BitVec.eq_of_toNat_eq; simp
  have hctr1 : s.ctr + 1 = BitVec.ofNat 33 (c.toNat + (j + 1)) := by
    rw [h.ctr_eq]; apply BitVec.eq_of_toNat_eq; simp; omega
  have hlen : s.len = data.length := h.len_eq
  have hout : s.mem.out.length = 64 * j := by rw [h.out_eq]; simp; omega
  have hn : 64 * j + min 64 (data.length - 64 * j) ≤ data.length := by omega
  unfold State.driverBlock
  rw [hpast, hctr, hlen, hoff, runBlockFromBuffers_eq _ h.key_eq h.nonce_eq, runBlock_eq]
  simp only [Bool.false_eq_true, if_false]
  rw [thenRun_running (by exact h.busy)]
  unfold State.xorStep
  rw [Memory.read_inside rfl (by simpa [Memory.bytes, h.data_eq, hoff] using hn), Memory.read_ks (by omega)]
  simp only [Memory.bytes, h.data_eq, hoff]
  rw [xorBytes_block]
  have hw : 64 * j + (((streamOutput key c nonce data).drop (64 * j)).take 64).length ≤ s.mem.outSize := by
    rw [h.outSize_eq]; simp; omega
  unfold State.writeOut
  rw [← hout] at hw
  rw [← hout, Memory.write_out_append (by exact hw), hout]
  simp only []
  rw [thenRun_running (by exact h.busy)]
  refine ⟨{ s with
    x := rounds (initWords key (c + BitVec.ofNat 32 j) nonce), s := initWords key (c + BitVec.ofNat 32 j) nonce,
    dr := 10, qi := 0,
    mem := { s.mem with data := data, ks := blockFn key (c + BitVec.ofNat 32 j) nonce,
                        out := s.mem.out ++ ((streamOutput key c nonce data).drop (64 * j)).take 64 },
    off := 64 * j + min 64 (data.length - 64 * j), ctr := s.ctr + 1 }, ?_, rfl, ?_⟩
  · constructor <;> dsimp only
    · exact h.busy
    · exact h.key_eq
    · exact h.nonce_eq
    · exact h.len_eq
    · exact h.outSize_eq
    · omega
    · exact hctr1
    · rw [h.out_eq, ← List.take_add]
      congr 1
  · unfold State.advanceDriver
    dsimp only
    rw [hctr1, counterPast_ofNat (by omega)]
    cases hp : s.params.overflowPolicy
    · simp
    · by_cases hb : c.toNat + (j + 1) = 2 ^ 32
      · simp only [hb, decide_true, if_true, and_self]
      · simp only [hb, decide_false, Bool.false_eq_true, if_false, and_false]

/-- A block whose counter would be above `0xFFFFFFFF` is not generated: the failure (R145). -/
theorem driverBlock_past {key : Vector Byte 32} {c : Word} {nonce : Vector Byte 12} {data : List Byte} {j : Nat} {s : State}
    (h : Driving key c nonce data j s) (hc : c.toNat + j = 2 ^ 32) :
    s.driverBlock = .next (raiseFailure .counterOverflow s) := by
  unfold State.driverBlock
  rw [h.ctr_eq, counterPast_ofNat (by omega), hc]
  rfl

/-- One turn of the loop while data are left. -/
theorem driverLoop_succ {key : Vector Byte 32} {c : Word} {nonce : Vector Byte 12} {data : List Byte} {j n : Nat} {s : State}
    (h : Driving key c nonce data j s) (hj : 64 * j < data.length) :
    driverLoop (n + 1) s = thenRun s.driverBlock (driverLoop n) := by
  have : s.off < s.len := by rw [h.off_eq, h.len_eq]; omega
  rw [driverLoop, if_pos this]

/-- The loop under the `lazy` policy from block `j` on: the whole output where every counter is in range, else
`CounterOverflow` (R142, R145). -/
theorem driverLoop_lazy {key : Vector Byte 32} {c : Word} {nonce : Vector Byte 12} {data : List Byte} (n : Nat) :
    ∀ (j : Nat) (s : State), Driving key c nonce data j s → s.params.overflowPolicy = .lazy →
      j + n = numBlocks data.length → c.toNat + j ≤ 2 ^ 32 →
      (c.toNat + numBlocks data.length ≤ 2 ^ 32 →
        ∃ t, driverLoop n s = .next t ∧ Driving key c nonce data (numBlocks data.length) t) ∧
      (2 ^ 32 < c.toNat + numBlocks data.length →
        ∃ t, driverLoop n s = .next (raiseFailure .counterOverflow t)) := by
  induction n with
  | zero =>
    intro j s h _ hj hc
    obtain rfl : j = numBlocks data.length := by omega
    exact ⟨fun _ => ⟨s, rfl, h⟩, fun hlt => absurd hlt (by omega)⟩
  | succ n ih =>
    intro j s h hp hj hc
    have hlt : 64 * j < data.length := by unfold numBlocks at hj; omega
    rw [driverLoop_succ h hlt]
    by_cases hpast : c.toNat + j = 2 ^ 32
    · rw [driverBlock_past h hpast, thenRun_ended rfl]
      exact ⟨fun hle => absurd hle (by omega), fun _ => ⟨s, rfl⟩⟩
    · obtain ⟨t, ht, hpar, heq⟩ := driverBlock_eq h hlt (by omega)
      rw [heq, if_neg (by simp [hp]), thenRun_running ht.busy]
      exact ih (j + 1) t ht (hpar ▸ hp) (by omega) (by omega)

/-- The loop under the `eager` policy from block `j` on: it also fails after the block with counter `0xFFFFFFFF`, even
as the last (R145). -/
theorem driverLoop_eager {key : Vector Byte 32} {c : Word} {nonce : Vector Byte 12} {data : List Byte} (n : Nat) :
    ∀ (j : Nat) (s : State), Driving key c nonce data j s → s.params.overflowPolicy = .eager →
      j + n = numBlocks data.length → c.toNat + j < 2 ^ 32 →
      (c.toNat + numBlocks data.length < 2 ^ 32 →
        ∃ t, driverLoop n s = .next t ∧ Driving key c nonce data (numBlocks data.length) t) ∧
      (2 ^ 32 ≤ c.toNat + numBlocks data.length →
        ∃ t, driverLoop n s = .next (raiseFailure .counterOverflow t)) := by
  induction n with
  | zero =>
    intro j s h _ hj hc
    obtain rfl : j = numBlocks data.length := by omega
    exact ⟨fun _ => ⟨s, rfl, h⟩, fun hle => absurd hle (by omega)⟩
  | succ n ih =>
    intro j s h hp hj hc
    have hlt : 64 * j < data.length := by unfold numBlocks at hj; omega
    rw [driverLoop_succ h hlt]
    obtain ⟨t, ht, hpar, heq⟩ := driverBlock_eq h hlt hc
    by_cases hpast : c.toNat + (j + 1) = 2 ^ 32
    · rw [heq, if_pos ⟨hp, hpast⟩, thenRun_ended rfl]
      exact ⟨fun hl => absurd hl (by omega), fun _ => ⟨t, rfl⟩⟩
    · rw [heq, if_neg (fun hc => hpast hc.2), thenRun_running ht.busy]
      exact ih (j + 1) t ht (hpar ▸ hp) (by omega) (by omega)

/-- TRANSFORM with valid lengths reaches the loop at block 0. -/
theorem startDriver_driving (key : Vector Byte 32) (c : Word) (nonce : Vector Byte 12) (data : List Byte) (s : State) :
    Driving key c nonce data 0
      ((s.accept.latchKeyNonce key.toList nonce.toList c).latchData data).startDriver := by
  constructor <;> try rfl
  simp

end Sys2Proof.Machine
end

