-- ==== Sys2Proof/Laws/Instances.lean ====
section
/-! SUPPORT. What a move of one instance does to a platform: the parameters, the instance, the other instances. -/

namespace Sys2Proof.Machine

@[simp] theorem Platform.core_params {n : Nat} (p : Platform n) (k : Fin n) : (p.core k).params = p.params := rfl

@[simp] theorem Platform.withCore_params {n : Nat} (p : Platform n) (k : Fin n) (s : State) :
    (p.withCore k s).params = p.params := rfl

/-- The instance that was put there, under the platform's parameters. -/
@[simp] theorem Platform.core_withCore_self {n : Nat} (p : Platform n) (k : Fin n) (s : State) :
    (p.withCore k s).core k = { s with params := p.params } := by
  simp [Platform.core, Platform.withCore]

/-- Every other instance is as it was. -/
theorem Platform.core_withCore_ne {n : Nat} (p : Platform n) {i k : Fin n} (h : i ≠ k) (s : State) :
    (p.withCore k s).core i = p.core i := by
  have hne : k.val ≠ i.val := fun e => h (Fin.ext e.symm)
  simp [Platform.core, Platform.withCore, hne]

/-- Moves of two instances do not meet. -/
theorem Platform.withCore_comm {n : Nat} (p : Platform n) {j k : Fin n} (h : j ≠ k) (s t : State) :
    (p.withCore k s).withCore j t = (p.withCore j t).withCore k s := by
  have hne : k.val ≠ j.val := fun e => h (Fin.ext e.symm)
  simp only [Platform.withCore]
  congr 1
  exact Vector.set_comm _ _ hne

/-- All a move of an instance can answer as a next platform: the instance alone made the move. -/
theorem Platform.act_cases {n : Nat} {k : Fin n} {f : State → Result} {p p1 : Platform n} (h : p.act k f = .next p1) :
    ∃ s, f (p.core k) = .next s ∧ p1 = p.withCore k s := by
  unfold Platform.act at h
  split at h
  · next s hs =>
    injection h with h
    exact ⟨s, hs, h.symm⟩
  · cases h
  · cases h

/-- The move of an instance as an equation. -/
theorem Platform.act_next {n : Nat} {k : Fin n} {f : State → Result} {p : Platform n} {s : State}
    (h : f (p.core k) = .next s) : p.act k f = .next (p.withCore k s) := by
  simp [Platform.act, h]

/-- What the host gets from an instance is what it would get from that instance alone. -/
theorem responseOfInstance_transact {n : Nat} (k : Fin n) (req : List Byte) (p : Platform n) :
    responseOfInstance (transactInstance k req p) = responseOf (transact req (p.core k)) := by
  unfold transactInstance
  cases transact req (p.core k) <;> rfl

end Sys2Proof.Machine
end

