-- ==== Sys2Proof/Laws/Meanings.lean ====
section
/-! SUPPORT. Each meaning as an equation: which updates, in order, lead from the state before to the answer. -/

namespace Sys2Proof.Machine

/-- The test of R106 is pairwise distinctness. -/
theorem distinctPositions_iff (a b c d : Pos) : distinctPositions a b c d = true ↔ [a, b, c, d].Nodup := by
  simp [distinctPositions, and_assoc]

/-- QR with distinct positions. -/
theorem execQr_distinct (x : Vector Word 16) {pa pb pc pd : Pos} (s : State) (h : [pa, pb, pc, pd].Nodup) :
    execQr x pa pb pc pd s =
      .next (respondOk (((State.latchQr x pa pb pc pd s.accept).qrAtLatched).withOut 64
        (bytesOfWords (qrAt x pa pb pc pd)).toList)) := by
  have hx : (State.latchQr x pa pb pc pd s.accept).qrAtLatched.x = qrAt x pa pb pc pd := by simp
  unfold execQr
  rw [if_pos ((distinctPositions_iff _ _ _ _).2 h)]
  simp only
  rw [hx, State.writeOut_alloc (by simp), thenRun_running (by simp)]

/-- KS copied to a fresh OUT. -/
theorem copyKsToOut_eq (s : State) : s.copyKsToOut = .next (s.withOut 64 s.mem.ks.toList) := by
  unfold State.copyKsToOut
  rw [Memory.read_ks (Nat.le_refl 64), List.take_of_length_le (by simp)]
  exact State.writeOut_alloc (by simp) s

/-- BLOCK with a key of 32 bytes and a nonce of 12. -/
theorem execBlock_valid (key : Vector Byte 32) (c : Word) (nonce : Vector Byte 12) (s : State) :
    execBlock key.toList c nonce.toList s =
      .next (respondOk (((s.accept.latchKeyNonce key.toList nonce.toList c).runBlock key c nonce).withOut 64
        (blockFn key c nonce).toList)) := by
  have hv : (s.accept.latchKeyNonce key.toList nonce.toList c).lengthsValid = true := by simp [State.lengthsValid]
  unfold execBlock
  simp only [hv, if_true]
  rw [State.latchKeyNonce_ctr0, runBlockFromBuffers_eq (key := key) (nonce := nonce) c (by simp) (by simp),
    thenRun_running (by simp), copyKsToOut_eq, thenRun_running (by simp), State.runBlock_mem_ks]

/-- What the length check of BLOCK and TRANSFORM sees (R128, R141). -/
theorem lengthsValid_false {key nonce : List Byte} {s : State} (h : key.length ≠ 32 ∨ nonce.length ≠ 12)
    (hk : s.klen = key.length) (hn : s.nlen = nonce.length) : s.lengthsValid = false := by
  simp only [State.lengthsValid, hk, hn, Bool.and_eq_false_iff, decide_eq_false_iff_not]
  exact h

/-- BLOCK with another length. -/
theorem execBlock_invalid {key nonce : List Byte} (c : Word) (s : State) (h : key.length ≠ 32 ∨ nonce.length ≠ 12) :
    execBlock key c nonce s = .next (raiseFailure .invalidInput (s.accept.latchKeyNonce key nonce c)) := by
  have hv := lengthsValid_false (s := s.accept.latchKeyNonce key nonce c) h rfl rfl
  unfold execBlock
  simp [hv]

/-- TRANSFORM with valid lengths and data within MAX_LEN: the loop, then the answer. -/
theorem execTransform_valid (data : List Byte) (key : Vector Byte 32) (nonce : Vector Byte 12) (c : Word) (s : State)
    (h : data.length ≤ s.params.maxLen) :
    execTransform data key.toList nonce.toList c s =
      thenRun (driverLoop (numBlocks data.length)
        ((s.accept.latchKeyNonce key.toList nonce.toList c).latchData data).startDriver) fun s => .next (respondOk s) := by
  have hv : ((s.accept.latchKeyNonce key.toList nonce.toList c).latchData data).lengthsValid = true := by
    simp [State.lengthsValid]
  unfold execTransform
  rw [if_neg (by omega)]
  simp only [hv, if_true, State.latchData_len]

/-- TRANSFORM with another length. -/
theorem execTransform_invalid {data key nonce : List Byte} (c : Word) (s : State)
    (h : key.length ≠ 32 ∨ nonce.length ≠ 12) (hm : data.length ≤ s.params.maxLen) :
    execTransform data key nonce c s =
      .next (raiseFailure .invalidInput ((s.accept.latchKeyNonce key nonce c).latchData data)) := by
  have hv := lengthsValid_false (s := (s.accept.latchKeyNonce key nonce c).latchData data) h rfl rfl
  unfold execTransform
  rw [if_neg (by omega)]
  simp [hv]

/-- TRANSFORM with data above MAX_LEN. -/
theorem execTransform_long {data key nonce : List Byte} (c : Word) (s : State) (h : s.params.maxLen < data.length) :
    execTransform data key nonce c s = .refused .lengthAboveMax := by
  unfold execTransform
  rw [if_pos h]

/-- SELFTEST: the comparison of R160 written to OUT. -/
theorem execSelftest_eq (s : State) :
    execSelftest s =
      .next (respondOk ((s.accept.runBlock stKey stCounter stNonce).withOut 1
        [if (blockFn stKey stCounter stNonce).toList = stExpect.toList then 0x01 else 0x00])) := by
  unfold execSelftest State.compareKs
  rw [Memory.read_ks (Nat.le_refl 64), List.take_of_length_le (by simp), State.runBlock_mem_ks]
  simp only
  rw [State.writeOut_alloc (by simp), thenRun_running (by simp)]

end Sys2Proof.Machine
end

