-- ==== Sys2Proof/Laws/PerInstr.lean ====
section
/-! SUPPORT. Facts about every operation as syntax, one lemma per constructor. -/

namespace Sys2Proof.Laws.FrameLength

open Sys2Proof Sys2Proof.Machine

/-- The length in bytes that R72 to R75 give the frame of an operation. -/
def frameLength : Instr → Nat
  | .qr _ _ _ _ _ => 67
  | .block key _ nonce => 7 + key.length + nonce.length
  | .transform data key nonce _ => 15 + key.length + nonce.length + data.length
  | .selftest => 1

/-- The frame of an operation has the length of its format (R72 to R75). -/
def Statement (i : Instr) : Prop := (encode i).length = frameLength i

/-- A number written in `n` bytes takes `n` bytes. -/
theorem leBytes_length (n v : Nat) : (leBytes n v).length = n := by
  induction n generalizing v with
  | zero => rfl
  | succ n ih => simp [leBytes, ih]

theorem qr (x : Vector Word 16) (pa pb pc pd : Pos) : Statement (.qr x pa pb pc pd) := by
  simp [Statement, encode, frameLength]

theorem block (key : List Byte) (counter : Word) (nonce : List Byte) : Statement (.block key counter nonce) := by
  simp only [Statement, encode, frameLength, List.length_cons, List.length_append, Vector.length_toList]
  omega

theorem transform (data key nonce : List Byte) (initialCounter : Word) :
    Statement (.transform data key nonce initialCounter) := by
  simp only [Statement, encode, frameLength, List.length_cons, List.length_append, Vector.length_toList, leBytes_length]
  omega

theorem selftest : Statement .selftest := rfl

end Sys2Proof.Laws.FrameLength
end

