-- ==== Sys2Proof/Tests/Slice0.lean ====
section
/-! SUPPORT. Tests against the vectors of 95_test_vectors and the examples of the rules, the smoke test of WellFormed, and
for every statement with hypotheses a witness that meets them. -/

namespace Sys2Proof.Tests

-- One theorem at a time: many kernel evaluations at once ask for more threads than the memory limit allows.
set_option Elab.async false

open Sys2Proof Sys2Proof.Machine

/-! Helpers. -/

/-- `r` is a next state of which `p` holds. -/
def answers (r : Result) (p : State → Bool) : Bool :=
  match r with
  | .next t => p t
  | _ => false

theorem exists_of_answers {r : Result} {p : State → Bool} (h : answers r p = true) :
    ∃ t, r = .next t ∧ p t = true := by
  cases r with
  | next t => exact ⟨t, rfl, h⟩
  | fault e => cases h
  | refused e => cases h

/-- `r` is a next state whose pending response is `rsp`. -/
def responds (r : Result) (rsp : List Byte) : Bool := answers r fun t => t.rsp == some rsp

theorem exists_of_responds {r : Result} {rsp : List Byte} (h : responds r rsp = true) :
    ∃ t, r = .next t ∧ t.rsp = some rsp := by
  obtain ⟨t, ht, hp⟩ := exists_of_answers h
  exact ⟨t, ht, by simpa using hp⟩

/-- `r` is refused for the reason `e`. -/
def refuses (r : Result) (e : Refusal) : Bool :=
  match r with
  | .refused e' => e' == e
  | _ => false

/-- An idle state in which an earlier operation left everything it could. -/
def dirty : State :=
  { State.reset with
    x := Vector.replicate 16 0xDEADBEEF, s := Vector.replicate 16 0xFFFFFFFF, dr := 10, qi := 5, ctr := 0x100000000,
    off := 65, ctr0 := 0xFFFFFFFF, klen := 31, nlen := 13, len := 7, pa := 3, pb := 3, pc := 15, pd := 0,
    status := .counterOverflow,
    mem := { key := List.replicate 31 1, nonce := List.replicate 13 2, data := List.replicate 7 3,
             ks := Vector.replicate 64 0xAA, out := [1, 2], outSize := 9 } }

/-- The state after reset with the parameter OVERFLOW_POLICY set to `eager`. -/
def eagerReset : State := { State.reset with params := ⟨.eager, 2 ^ 64 - 1⟩ }

/-- The state after reset of an implementation that accepts three bytes of data at most. -/
def smallReset : State := { State.reset with params := ⟨.lazy, 3⟩ }

/-- `s` with a request handed over. -/
def withReq (req : List Byte) (s : State) : State := { s with req := some req }

/-- Z and ZN of 95_test_vectors section 4: the all-zero key and nonce. -/
def zeroKey : Vector Byte 32 := Vector.replicate 32 0
def zeroNonce : Vector Byte 12 := Vector.replicate 12 0

/-- TRANSFORM of `n` zero bytes under the all-zero key and nonce. -/
def zeros (n : Nat) (c : Word) : Instr := .transform (List.replicate n 0) zeroKey.toList zeroNonce.toList c

/-! WellFormed refuses an ill-formed term for each of its checks, and accepts the boundary. -/

theorem test_wf_block_key : (Instr.block (List.replicate 256 0) 0 []).wellFormed = false := by decide +kernel
theorem test_wf_block_nonce : (Instr.block [] 0 (List.replicate 256 0)).wellFormed = false := by decide +kernel
theorem test_wf_transform_key : (Instr.transform [] (List.replicate 256 0) [] 0).wellFormed = false := by decide +kernel
theorem test_wf_transform_nonce : (Instr.transform [] [] (List.replicate 256 0) 0).wellFormed = false := by decide +kernel
theorem test_wf_transform_data (data : List Byte) (h : data.length = 2 ^ 64) :
    (Instr.transform data [] [] 0).wellFormed = false := by
  simp [Instr.wellFormed, h]
theorem test_wf_boundary :
    (Instr.transform [] (List.replicate 255 0) (List.replicate 255 0) 0).WellFormed ∧
      (Instr.block (List.replicate 255 0) 0 (List.replicate 255 0)).WellFormed ∧
      (Instr.qr (Vector.replicate 16 0) 0 0 0 0).WellFormed ∧ Instr.selftest.WellFormed := by decide +kernel

/-! Decoding: frames written out byte by byte from R72 to R75 and 95_test_vectors. -/

/-- Q12: opcode 01, positions 0,1 in byte 1 and 2,3 in byte 2, words little-endian. -/
theorem test_decode_qr :
    decode ([0x01, 0x01, 0x23, 0x11, 0x11, 0x11, 0x11, 0x04, 0x03, 0x02, 0x01, 0x43, 0x6f, 0x8d, 0x9b,
        0x67, 0x45, 0x23, 0x01] ++ List.replicate 48 0) =
      .ok (.qr #v[0x11111111, 0x01020304, 0x9b8d6f43, 0x01234567, 0, 0, 0, 0, 0, 0, 0, 0, 0, 0, 0, 0] 0 1 2 3) := by
  decide +kernel

/-- P3, lines 1 and 8: the position bytes of columns and diagonals. -/
theorem test_decode_qr_positions :
    decode ([0x01, 0x04, 0x8c] ++ List.replicate 64 0) = .ok (.qr (Vector.replicate 16 0) 0 4 8 12) ∧
      decode ([0x01, 0x34, 0x9e] ++ List.replicate 64 0) = .ok (.qr (Vector.replicate 16 0) 3 4 9 14) := by decide +kernel

/-- R73: KLEN 2, NLEN 3, CTR0 little-endian, the key before the nonce. -/
theorem test_decode_block :
    decode [0x02, 0x02, 0x03, 0x04, 0x03, 0x02, 0x01, 0xa0, 0xa1, 0xb0, 0xb1, 0xb2] =
      .ok (.block [0xa0, 0xa1] 0x01020304 [0xb0, 0xb1, 0xb2]) := by decide +kernel

/-- R74: KLEN 1, NLEN 2, CTR0 and LEN little-endian, then key, nonce, data. -/
theorem test_decode_transform :
    decode [0x03, 0x01, 0x02, 0xfe, 0xff, 0xff, 0xff, 0x03, 0, 0, 0, 0, 0, 0, 0, 0xa0, 0xb0, 0xb1, 0xc0, 0xc1, 0xc2] =
      .ok (.transform [0xc0, 0xc1, 0xc2] [0xa0] [0xb0, 0xb1] 0xFFFFFFFE) := by decide +kernel

/-- E5. -/
theorem test_decode_selftest : decode [0x04] = .ok .selftest := by decide +kernel

/-- E1 to E4, E6 to E8 and E15: what is no frame. -/
theorem test_decode_rejects :
    decode [] = .error .emptyRequest ∧ decode [0x00] = .error (.reservedOpcode 0x00) ∧
      decode [0x05] = .error (.reservedOpcode 0x05) ∧ decode [0xff] = .error (.reservedOpcode 0xff) ∧
      decode [0x04, 0x00] = .error .lengthMismatch ∧ decode (0x01 :: List.replicate 65 0) = .error .lengthMismatch ∧
      decode [0x02, 0x20, 0x0c] = .error .shortHeader ∧
      decode ([0x03, 0x20, 0x0c, 0, 0, 0, 0, 0x03, 0, 0, 0, 0, 0, 0, 0] ++ List.replicate 46 0) =
        .error .lengthMismatch := by decide +kernel

/-- The host's table words: an opcode byte, every later byte zero. -/
theorem test_tableWord :
    decodeTableWord 8 1 = some (.qr (Vector.replicate 16 0) 0 0 0 0) ∧ decodeTableWord 8 2 = some (.block [] 0 []) ∧
      decodeTableWord 8 3 = some (.transform [] [] [] 0) ∧ decodeTableWord 8 4 = some .selftest ∧
      decodeTableWord 8 5 = none := by decide +kernel

/-! Words and the quarter-round (95_test_vectors section 2). -/

theorem test_words : add32 0x77777777 0x01234567 = 0x789abcde ∧ xor32 0x01020304 0x789abcde = 0x7998bfda ∧
    rotl32 0x7998bfda 7 = 0xcc5fed3c ∧ rotl32 0x12345678 16 = 0x56781234 ∧ rotl32 0x12345678 12 = 0x45678123 ∧
    rotl32 0x12345678 8 = 0x34567812 ∧ rotl32 0x80000001 1 = 0x00000003 ∧ rotl32 0x00000001 31 = 0x80000000 := by
  decide +kernel

/-- Q1, Q5 and Q11. -/
theorem test_qr4 :
    qr4 (0x11111111, 0x01020304, 0x9b8d6f43, 0x01234567) = (0xea2a92f4, 0xcb1cf8ce, 0x4581472e, 0x5881c4bb) ∧
      qr4 (1, 0, 0, 0) = (0x10000001, 0x80808808, 0x01010110, 0x01000110) ∧
      qr4 (0x61707865, 0x03020100, 0x13121110, 1) = (0xabbaa25c, 0x3a465196, 0x6b3ca454, 0xdec62ed2) := by decide +kernel

/-- Q2. -/
theorem test_qrAt :
    qrAt #v[0x879531e0, 0xc5ecf37d, 0x516461b1, 0xc9a62f8a, 0x44c20ef3, 0x3390af7f, 0xd9fc690b, 0x2a5f714c,
        0x53372767, 0xb00a5631, 0x974c541a, 0x359e9963, 0x5c971061, 0x3d631689, 0x2098d9d6, 0x91dbd320] 2 7 8 13 =
      #v[0x879531e0, 0xc5ecf37d, 0xbdb886dc, 0xc9a62f8a, 0x44c20ef3, 0x3390af7f, 0xd9fc690b, 0xcfacafd2,
        0xe46bea80, 0xb00a5631, 0x974c541a, 0x359e9963, 0x5c971061, 0xccc07c79, 0x2098d9d6, 0x91dbd320] := by decide +kernel

/-- R120, R123: the running example, its initial state after one double round. -/
theorem test_doubleRound :
    doubleRound (initWords stKey 1 stNonce) =
      #v[0xcd52e917, 0x85ab03b4, 0xb3457395, 0xf96de7dd, 0xc4b7cd22, 0x5c2e187a, 0xc95eb461, 0x316c801a,
        0x7bf7d740, 0x7eddd644, 0xf1a1bdf5, 0x761246ca, 0x6b0d58a3, 0x6798471a, 0xd737f167, 0xf173888d] := by
  decide +kernel

/-! The operations. -/

/-- Q12: the response of QR, from a state full of left-over values. -/
theorem test_qr :
    responds (exec (.qr #v[0x11111111, 0x01020304, 0x9b8d6f43, 0x01234567, 0, 0, 0, 0, 0, 0, 0, 0, 0, 0, 0, 0] 0 1 2 3)
        dirty)
      ([0x00, 0xf4, 0x92, 0x2a, 0xea, 0xce, 0xf8, 0x1c, 0xcb, 0x2e, 0x47, 0x81, 0x45, 0xbb, 0xc4, 0x81, 0x58] ++
        List.replicate 48 0) = true := by decide +kernel

/-- Q13, E20: repeated positions. -/
theorem test_qr_repeated :
    refuses (exec (.qr (Vector.replicate 16 1) 0 0 1 2) State.reset) .repeatedPositions = true := by decide +kernel

/-- B2: key and nonce of zeros, counter 0. -/
theorem test_block :
    responds (exec (.block zeroKey.toList 0 zeroNonce.toList) dirty)
      [0x00,
        0x76, 0xb8, 0xe0, 0xad, 0xa0, 0xf1, 0x3d, 0x90, 0x40, 0x5d, 0x6a, 0xe5, 0x53, 0x86, 0xbd, 0x28,
        0xbd, 0xd2, 0x19, 0xb8, 0xa0, 0x8d, 0xed, 0x1a, 0xa8, 0x36, 0xef, 0xcc, 0x8b, 0x77, 0x0d, 0xc7,
        0xda, 0x41, 0x59, 0x7c, 0x51, 0x57, 0x48, 0x8d, 0x77, 0x24, 0xe0, 0x3f, 0xb8, 0xd8, 0x4a, 0x37,
        0x6a, 0x43, 0xb8, 0xf4, 0x15, 0x18, 0xa1, 0x1c, 0xc3, 0x87, 0xb6, 0x69, 0xb2, 0xee, 0x65, 0x86] = true := by
  decide +kernel

/-- E9 to E12: the wrong lengths next to the right ones. -/
theorem test_block_invalid :
    responds (exec (.block (List.replicate 31 0) 1 (List.replicate 12 0)) State.reset) [0x01] = true ∧
      responds (exec (.block (List.replicate 33 0) 1 (List.replicate 12 0)) State.reset) [0x01] = true ∧
      responds (exec (.block (List.replicate 32 0) 1 (List.replicate 11 0)) State.reset) [0x01] = true ∧
      responds (exec (.block (List.replicate 32 0) 1 (List.replicate 13 0)) State.reset) [0x01] = true := by decide +kernel

/-- T4: 65 zero bytes use two blocks; byte 64 is the first byte of the second, and CTR and OFF end at 2 and 65. -/
theorem test_transform :
    answers (exec (zeros 65 0) dirty) (fun t =>
      (t.rsp.getD []).length == 66 && ((t.rsp.getD []).take 5 == [0x00, 0x76, 0xb8, 0xe0, 0xad]) &&
        ((t.rsp.getD []).drop 64 == [0x86, 0x9f]) && t.ctr == 2 && t.off == 65) = true := by decide +kernel

/-- E16, E18, E19 and P4: InvalidInput before the empty success and before CounterOverflow; overflow on the block after
the last counter. -/
theorem test_transform_failures :
    responds (exec (.transform [] (List.replicate 31 0) zeroNonce.toList 0) State.reset) [0x01] = true ∧
      responds (exec (.transform (List.replicate 65 0) (List.replicate 31 0) zeroNonce.toList 0xFFFFFFFF) State.reset)
        [0x01] = true ∧
      responds (exec (zeros 65 0xFFFFFFFF) State.reset) [0x02] = true ∧
      responds (exec (zeros 0 0xFFFFFFFF) State.reset) [0x00] = true := by decide +kernel

/-- E5 as one step of the machine, from the host's table word. -/
theorem test_selftest : responds (step (State.reset.withFetchWord 8 4)) [0x00, 0x01] = true := by decide +kernel

/-- R153, R201: the work of 65 bytes. -/
theorem test_work : workOf (zeros 65 0) = ⟨160, 32, 65⟩ := by decide +kernel

/-! The text form (R87, R88). -/

/-- P1, line 2, with a comment. -/
theorem test_parse_selftest :
    parseLine "SELFTEST -> ok ; boot gate".toList = some (some ⟨.selftest, some "ok".toList⟩) := by decide +kernel

/-- P3, line 2: a named state operand. -/
theorem test_parse_qr :
    parseLine "QR x1, 1, 5,  9, 13  -> x2".toList =
      some (some ⟨.qr (.named "x1".toList) 1 5 9 13, some "x2".toList⟩) := by decide +kernel

/-- R87: byte strings in hexadecimal and in ASCII, and a hexadecimal counter. -/
theorem test_parse_transform :
    parseLine "DECRYPT \"AB\", h\"00 01 02\", n, 0xFFFFFFFE".toList =
      some (some ⟨.decrypt (.lit [0x41, 0x42]) (.lit [0x00, 0x01, 0x02]) (.named "n".toList) 0xFFFFFFFE, none⟩) := by
  decide +kernel

/-- A comment line, and two lines outside the syntax (a position out of range; a counter of 33 bits). -/
theorem test_parse_rejects :
    parseLine "; nothing".toList = some none ∧ parseLine "QR x, 0, 1, 2, 16".toList = none ∧
      parseLine "BLOCK k, 0x100000000, n".toList = none := by decide +kernel

/-! Witnesses: for each statement with hypotheses, operands and states that meet them. -/

/-- Rotl32MovesBits, at both ends of the range. -/
theorem witness_rotl32 : (1 ≤ 1 ∧ 1 ≤ 31 ∧ 0 < 32) ∧ (1 ≤ 31 ∧ 31 ≤ 31 ∧ 31 < 32) := by decide +kernel

/-- LittleEndianRoundTrip: the last word of a key lies inside it. -/
theorem witness_lew : 4 * 7 + 3 < 32 ∧ 4 * 2 + 3 < 12 := by decide +kernel

/-- QratChangesItsFourWords, QrAnswersTheMixedState, Qr4IsBijective: a group of the schedule and a word outside it. -/
theorem witness_distinct :
    [(0 : Pos), 4, 8, 12].Nodup ∧ [(12 : Pos), 15, 0, 3].Nodup ∧
      (1 : Pos) ≠ 0 ∧ (1 : Pos) ≠ 4 ∧ (1 : Pos) ≠ 8 ∧ (1 : Pos) ≠ 12 := by decide +kernel

/-- QrRepeatedPositionsRefused: two equal, all equal, first and last equal. -/
theorem witness_repeated :
    ¬ [(0 : Pos), 0, 1, 2].Nodup ∧ ¬ [(7 : Pos), 7, 7, 7].Nodup ∧ ¬ [(15 : Pos), 1, 2, 15].Nodup := by decide +kernel

/-- QrFrame. -/
theorem witness_qrFrame : ∃ t, exec (.qr (Vector.replicate 16 1) 0 1 2 3) dirty = .next t :=
  (exists_of_answers (p := fun _ => true) (by decide +kernel)).imp fun _ h => h.1

/-- ScheduleColumnsAndDiagonals: the columns backwards are an order of them. -/
theorem witness_schedule :
    [((3, 7, 11, 15) : Pos × Pos × Pos × Pos), (2, 6, 10, 14), (1, 5, 9, 13), (0, 4, 8, 12)].Perm
      [(0, 4, 8, 12), (1, 5, 9, 13), (2, 6, 10, 14), (3, 7, 11, 15)] := by decide +kernel

/-- SmallStepAgreesWithBlockfn, at both ends of the range. -/
theorem witness_smallStep : 0 ≤ 80 ∧ 80 ≤ 80 := by decide +kernel

/-- ScheduleIndependentOfData: two states that differ in their data. -/
theorem witness_sameSequencer :
    ({ dirty with dr := 0, qi := 0 } : State).dr = State.reset.dr ∧
      ({ dirty with dr := 0, qi := 0 } : State).qi = State.reset.qi ∧ dirty.x ≠ State.reset.x := by decide +kernel

/-- BlockWrongLengthInvalidInput and TransformWrongLengthInvalidInput, each side of each length. -/
theorem witness_wrongLength :
    ((List.replicate 31 (0 : Byte)).length ≠ 32 ∨ (List.replicate 12 (0 : Byte)).length ≠ 12) ∧
      ((List.replicate 33 (0 : Byte)).length ≠ 32 ∨ (List.replicate 12 (0 : Byte)).length ≠ 12) ∧
      ((List.replicate 32 (0 : Byte)).length ≠ 32 ∨ (List.replicate 11 (0 : Byte)).length ≠ 12) ∧
      ((List.replicate 32 (0 : Byte)).length ≠ 32 ∨ (List.replicate 13 (0 : Byte)).length ≠ 12) ∧
      ([] : List Byte).length ≤ State.reset.params.maxLen := by decide +kernel

/-- BlockFrame, for a next state of the OK path and one of the failing path. -/
theorem witness_blockFrame :
    (∃ t, exec (.block zeroKey.toList 0 zeroNonce.toList) dirty = .next t) ∧
      ∃ t, exec (.block [] 0 []) dirty = .next t :=
  ⟨(exists_of_responds test_block).imp fun _ h => h.1,
    (exists_of_answers (p := fun _ => true) (by decide +kernel)).imp fun _ h => h.1⟩

/-- TransformClosedForm: the first clause at its edge (64 bytes at the last counter) and for no data; the second with
one byte more. -/
theorem witness_closedForm :
    State.reset.params.overflowPolicy = .lazy ∧ (List.replicate 65 (0 : Byte)).length ≤ State.reset.params.maxLen ∧
      (((List.replicate 64 (0 : Byte)).length + 63) / 64 = 0 ∨
        (0xFFFFFFFF : Word).toNat + ((List.replicate 64 (0 : Byte)).length + 63) / 64 ≤ 2 ^ 32) ∧
      (([] : List Byte).length + 63) / 64 = 0 ∧
      ¬ (((List.replicate 65 (0 : Byte)).length + 63) / 64 = 0 ∨
        (0xFFFFFFFF : Word).toNat + ((List.replicate 65 (0 : Byte)).length + 63) / 64 ≤ 2 ^ 32) := by decide +kernel

/-- EagerDiffersOnBoundaryOnly: 1 and 64 bytes at the last counter lie on the boundary, 0 and 65 do not. -/
theorem witness_eager :
    State.reset.params.overflowPolicy = .lazy ∧ eagerReset.params.overflowPolicy = .eager ∧
      eagerReset.params.maxLen = State.reset.params.maxLen ∧
      onBoundary 0xFFFFFFFF 1 = true ∧ onBoundary 0xFFFFFFFF 64 = true ∧
      onBoundary 0xFFFFFFFF 0 = false ∧ onBoundary 0xFFFFFFFF 65 = false := by decide +kernel

/-- T5b under either policy. -/
theorem test_policies :
    responds (exec (zeros 1 0xFFFFFFFF) State.reset) [0x00, 0xac] = true ∧
      responds (exec (zeros 1 0xFFFFFFFF) eagerReset) [0x02] = true := by decide +kernel

/-- TransformAboveMaxLenRefused: one byte above MAX_LEN; and MAX_LEN itself is not refused. -/
theorem witness_aboveMax :
    smallReset.params.maxLen < ([1, 2, 3, 4] : List Byte).length ∧
      refuses (exec (.transform [1, 2, 3, 4] [] [] 0) smallReset) .lengthAboveMax = true ∧
      responds (exec (.transform [1, 2, 3] [] [] 0) smallReset) [0x01] = true := by decide +kernel

/-- The answers that TransformInvolution, TransformPreservesLength, FlippedInputBitFlipsOutputBit, TransformFrame and
TransformSequencerEnd start from: T2. -/
theorem witness_transformOk :
    (∃ t, exec (zeros 1 0) State.reset = .next t ∧ t.rsp = some (0x00 :: [0x76])) ∧
      (∃ t, exec (zeros 1 0) State.reset = .next t ∧ (t.status == .ok) = true) ∧
      0 < (List.replicate 1 (0 : Byte)).length ∧ dirty.params = State.reset.params :=
  ⟨exists_of_responds (by decide +kernel), exists_of_answers (by decide +kernel), by decide +kernel, by decide +kernel⟩

/-- The second clause of TransformInvolution: T6. -/
theorem witness_transformOverflow :
    (∃ t, exec (zeros 65 0xFFFFFFFF) State.reset = .next t ∧ t.rsp = some [0x02]) ∧
      (List.replicate 65 (1 : Byte)).length = (List.replicate 65 (0 : Byte)).length :=
  ⟨exists_of_responds test_transform_failures.2.2.1, by decide +kernel⟩

/-- A TRANSFORM that ends with OK, its response as a status byte and an output. -/
theorem witness_ok (n : Nat) (c : Word) (h : answers (exec (zeros n c) State.reset)
      (fun t => (t.rsp.getD []).head? == some 0x00) = true) :
    ∃ t out, exec (zeros n c) State.reset = .next t ∧ t.rsp = some (0x00 :: out) := by
  obtain ⟨t, ht, hp⟩ := exists_of_answers h
  cases hr : t.rsp with
  | none => simp [hr] at hp
  | some r =>
    cases r with
    | nil => simp [hr] at hp
    | cons b out =>
      simp [hr] at hp
      exact ⟨t, out, ht, by rw [hr, hp]; rfl⟩

/-- TransformSeeksByBlocks, first clause: a piece of 64 bytes and one of 1. -/
theorem witness_seek :
    (List.replicate 64 (0 : Byte)).length % 64 = 0 ∧
      ∃ t out, exec (.transform (List.replicate 64 0 ++ List.replicate 1 0) zeroKey.toList zeroNonce.toList 0)
        State.reset = .next t ∧ t.rsp = some (0x00 :: out) :=
  ⟨by decide +kernel, by
    have h : List.replicate 64 (0 : Byte) ++ List.replicate 1 0 = List.replicate 65 0 := by decide +kernel
    rw [h]
    exact witness_ok 65 0 (by decide +kernel)⟩

/-- TransformSeeksByBlocks, second clause, the second piece at the last counter. -/
theorem witness_seekPieces :
    (0xFFFFFFFE : Word).toNat + (List.replicate 64 (0 : Byte)).length / 64 < 2 ^ 32 ∧
      (List.replicate 64 (0 : Byte) ++ [0]).length ≤ State.reset.params.maxLen ∧
      (∃ t out, exec (zeros 64 0xFFFFFFFE) State.reset = .next t ∧ t.rsp = some (0x00 :: out)) ∧
      ∃ t, exec (zeros 1 (0xFFFFFFFE + BitVec.ofNat 32 ((List.replicate 64 (0 : Byte)).length / 64))) State.reset =
        .next t ∧ t.rsp = some (0x00 :: [0xac]) :=
  ⟨by decide +kernel, by decide +kernel, witness_ok 64 0xFFFFFFFE (by decide +kernel),
    exists_of_responds (by decide +kernel)⟩

/-- KeystreamReuseLeaksXor: 65 bytes from counter 0 and one byte from counter 1 share the byte at offset 64. -/
theorem witness_reuse :
    (∃ t out, exec (zeros 65 0) State.reset = .next t ∧ t.rsp = some (0x00 :: out)) ∧
      (∃ t, exec (zeros 1 1) State.reset = .next t ∧ t.rsp = some (0x00 :: [0x9f])) ∧
      (1 : Word).toNat = (0 : Word).toNat + 1 ∧ 64 * 1 + 0 < (List.replicate 65 (0 : Byte)).length ∧
      0 < (List.replicate 1 (0 : Byte)).length :=
  ⟨witness_ok 65 0 (by decide +kernel), exists_of_responds (by decide +kernel), by decide +kernel, by decide +kernel, by decide +kernel⟩

/-- TransformOfZerosIsKeystream: no byte, and 64 bytes at the last counter. -/
theorem witness_zeros :
    State.reset.params.overflowPolicy = .lazy ∧ 64 ≤ State.reset.params.maxLen ∧
      ((64 : Nat) = 0 ∨ (0xFFFFFFFF : Word).toNat + (64 + 63) / 64 ≤ 2 ^ 32) ∧
      ((0 : Nat) = 0 ∨ (0xFFFFFFFF : Word).toNat + (0 + 63) / 64 ≤ 2 ^ 32) := by decide +kernel

/-- SelftestFrame. -/
theorem witness_selftestFrame : (∃ t, exec .selftest dirty = .next t) ∧ Buf.data ≠ Buf.ks :=
  ⟨(exists_of_answers (p := fun _ => true) (by decide +kernel)).imp fun _ h => h.1, by decide +kernel⟩

/-- EncodeDecode and StepRunsTheDecodedRequest: a request that decodes, handed to an idle instance; a table word. -/
theorem witness_decodes :
    decode [0x04] = .ok .selftest ∧ (withReq [0x04] State.reset).busy = false ∧
      (withReq [0x04] State.reset).req = some [0x04] ∧ decodeTableWord 8 4 = some .selftest := by decide +kernel

/-- ReservedOpcodesRejected, at the ends of both ranges. -/
theorem witness_reserved :
    ((0x00 : Byte).toNat = 0 ∨ 5 ≤ (0x00 : Byte).toNat) ∧ ((0x05 : Byte).toNat = 0 ∨ 5 ≤ (0x05 : Byte).toNat) ∧
      ((0xff : Byte).toNat = 0 ∨ 5 ≤ (0xff : Byte).toNat) := by decide +kernel

/-- EncryptDecryptAreTransform: a line that assembles. -/
theorem witness_encrypt :
    (AsmOp.encrypt (.lit [1]) (.named ['k']) (.lit [2]) 7).assemble [(['k'], [9])] =
      some (.transform [1] [9] [2] 7) := by decide +kernel

/-- StepAnswersBadFrames. -/
theorem witness_badFrame :
    (withReq [0xff] dirty).busy = false ∧ (withReq [0xff] dirty).req = some [0xff] ∧
      decode [0xff] = .error (.reservedOpcode 0xff) ∧ decode [] = .error .emptyRequest := by decide +kernel

/-- StepIdleAndBusy, each clause. -/
theorem witness_idleBusy :
    (State.reset.busy = false ∧ State.reset.req = none) ∧ ({ State.reset with busy := true } : State).busy = true ∧
      (withReq [] State.reset).req ≠ none ∧ ({ State.reset with rsp := some [0x01] } : State).rsp ≠ none := by decide +kernel

/-- EveryRequestIsAnswered: a request to an idle instance, for each of the five outcomes. -/
theorem witness_everyRequest :
    responds (step (withReq [0x04] State.reset)) [0x00, 0x01] = true ∧
      responds (step (withReq [0x00] State.reset)) [0x01] = true ∧
      responds (step (withReq (encode (zeros 65 0xFFFFFFFF)) State.reset)) [0x02] = true ∧
      refuses (step (State.reset.withFetchWord 8 1)) .repeatedPositions = true ∧
      refuses (step (withReq (encode (.transform [1, 2, 3, 4] [] [] 0)) smallReset)) .lengthAboveMax = true := by
  decide +kernel

/-- ResponseDependsOnRequestOnly: two idle states with one request that differ in what earlier operations left. -/
theorem witness_dependence :
    (withReq [0x04] dirty).busy = false ∧ (withReq [0x04] State.reset).busy = false ∧
      (withReq [0x04] dirty).req = some [0x04] ∧ (withReq [0x04] State.reset).req = some [0x04] ∧
      (withReq [0x04] dirty).params = (withReq [0x04] State.reset).params ∧
      (withReq [0x04] dirty).x ≠ (withReq [0x04] State.reset).x := by decide +kernel

/-- InvariantKept: a state after which a step runs an operation, and one that no run reaches. -/
theorem witness_invariant :
    (Inv (withReq [0x04] State.reset) ∧ ∃ t, step (withReq [0x04] State.reset) = .next t) ∧
      Inv (withReq [0x00] dirty) ∧ ∃ t, step (withReq [0x00] dirty) = .next t :=
  ⟨⟨by decide +kernel, (exists_of_responds witness_everyRequest.1).imp fun _ h => h.1⟩, by decide +kernel,
    (exists_of_answers (p := fun _ => true) (by decide +kernel)).imp fun _ h => h.1⟩

/-- HostResetAbandons: two states with the same open parameters, one of them busy. -/
theorem witness_hostReset :
    dirty.params = ({ State.reset with busy := true } : State).params ∧
      (hostReset dirty { State.reset with busy := true }).busy = false := by decide +kernel

/-- RetryGivesTheSameResponse: a request that fails, answered. -/
theorem witness_retry : ∃ s1, transact [0xff] State.reset = .next (some [0x01], s1) := ⟨_, rfl⟩

/-- Two instances of an eager platform, the first full of left-over values, its own parameters field not `eager`. -/
def twoCores : Platform 2 := { params := ⟨.eager, 200⟩, cores := #v[dirty, State.reset] }

/-- InstancesAreIndependent: two instances, a step of each. -/
theorem witness_instances :
    ∃ p1 p2 : Platform 2,
      stepInstance 1 { twoCores with cores := #v[withReq [0xff] dirty, withReq [0x00] State.reset] } = .next p1 ∧
        stepInstance 0 p1 = .next p2 ∧ (0 : Fin 2) ≠ 1 := ⟨_, _, rfl, rfl, by decide⟩

/-- ResponseIndependentOfInstance: two free instances with different contents, one of a platform with one instance only. -/
theorem witness_freeInstances :
    twoCores.params = (Platform.reset ⟨.eager, 200⟩ 1).params ∧
      ((twoCores.core 0).busy = false ∧ (twoCores.core 0).req = none ∧ (twoCores.core 0).rsp = none) ∧
      (((Platform.reset ⟨.eager, 200⟩ 1).core 0).busy = false ∧ ((Platform.reset ⟨.eager, 200⟩ 1).core 0).req = none ∧
        ((Platform.reset ⟨.eager, 200⟩ 1).core 0).rsp = none) ∧
      (twoCores.core 0).x ≠ (twoCores.core 1).x := by decide +kernel

/-- R181 with T5: 64 bytes at the last counter get the answer of the platform's policy from either instance. -/
theorem test_instances_policy :
    responds (step (withReq (encode (zeros 64 0xFFFFFFFF)) (twoCores.core 0))) [0x02] = true ∧
      responds (step (withReq (encode (zeros 64 0xFFFFFFFF)) (twoCores.core 1))) [0x02] = true := by decide +kernel

/-- DecodeEncode has its witnesses in `test_wf_boundary`; InvariantAtReset holds by evaluation. -/
theorem test_inv_reset : Inv State.reset := by decide +kernel

end Sys2Proof.Tests
end

namespace Sys2Proof.Machine

/-! Byte order (00_scope R11). LE32 and BYTES32 are both read as numbers in base 2^8; the round trips are then arithmetic. -/

/-- Putting a byte below `x` moves `x` up by one digit of base 2^8. -/
theorem toNat_append_byte {n : Nat} (x : BitVec n) (b : Byte) : (x ++ b).toNat = b.toNat + 2 ^ 8 * x.toNat := by
  rw [BitVec.toNat_append, ← Nat.shiftLeft_add_eq_or_of_lt b.isLt, Nat.shiftLeft_eq, Nat.add_comm, Nat.mul_comm]

theorem le32_toNat (b0 b1 b2 b3 : Byte) :
    (le32 b0 b1 b2 b3).toNat = b0.toNat + 2 ^ 8 * b1.toNat + 2 ^ 16 * b2.toNat + 2 ^ 24 * b3.toNat := by
  have h : (le32 b0 b1 b2 b3).toNat = b0.toNat + 2 ^ 8 * (b1.toNat + 2 ^ 8 * (b2.toNat + 2 ^ 8 * b3.toNat)) := by
    simp only [le32, toNat_append_byte]
  omega

theorem bytes32_getElem (w : Word) (k : Nat) (h : k < 4) : (bytes32 w)[k] = w.extractLsb' (8 * k) 8 := by
  match k, h with
  | 0, _ | 1, _ | 2, _ | 3, _ => rfl

theorem bytes32_getElem_toNat (w : Word) (k : Nat) (h : k < 4) :
    ((bytes32 w)[k]).toNat = w.toNat / 2 ^ (8 * k) % 2 ^ 8 := by
  rw [bytes32_getElem, BitVec.extractLsb'_toNat, Nat.shiftRight_eq_div_pow]

/-- The four digits of a word in base 2^8 add up to it, since a word is below 2^32. -/
theorem le32_bytes32 (w : Word) : le32 (bytes32 w)[0] (bytes32 w)[1] (bytes32 w)[2] (bytes32 w)[3] = w := by
  apply BitVec.eq_of_toNat_eq
  simp only [le32_toNat, bytes32_getElem_toNat]
  have hw : w.toNat < 2 ^ 32 := w.isLt
  omega

/-- Each byte is below 2^8, so digit `k` of their weighted sum is byte `k`. -/
theorem bytes32_le32 (b0 b1 b2 b3 : Byte) : bytes32 (le32 b0 b1 b2 b3) = #v[b0, b1, b2, b3] := by
  ext1 k hk
  apply BitVec.eq_of_toNat_eq
  rw [bytes32_getElem_toNat, le32_toNat]
  have h0 : b0.toNat < 2 ^ 8 := b0.isLt
  have h1 : b1.toNat < 2 ^ 8 := b1.isLt
  have h2 : b2.toNat < 2 ^ 8 := b2.isLt
  have h3 : b3.toNat < 2 ^ 8 := b3.isLt
  match k, hk with
  | 0, _ | 1, _ | 2, _ | 3, _ =>
    simp only [Vector.getElem_mk, List.getElem_toArray, List.getElem_cons_zero, List.getElem_cons_succ]
    omega

theorem lew_toNat {n : Nat} (s : Vector Byte n) (k : Nat) (h : 4 * k + 3 < n) :
    (lew s k h).toNat =
      s[4 * k].toNat + 2 ^ 8 * s[4 * k + 1].toNat + 2 ^ 16 * s[4 * k + 2].toNat + 2 ^ 24 * s[4 * k + 3].toNat := by
  rw [lew, le32_toNat]

/-- Settles O4: R11's conversions as numbers in base 2^8, and from that the two round trips. -/
theorem littleEndianRoundTrip : Obligations.LittleEndianRoundTrip := by
  unfold Obligations.LittleEndianRoundTrip
  refine ⟨fun b0 b1 b2 b3 => ⟨le32_toNat b0 b1 b2 b3, bytes32_le32 b0 b1 b2 b3⟩, fun w => ⟨le32_bytes32 w, ?_⟩, ?_⟩
  · exact fun k => bytes32_getElem_toNat w k k.isLt
  · exact fun _ s k h => lew_toNat s k h

/-- Settles O22: the length test is the first thing TRANSFORM does (log entry 13). -/
theorem transformAboveMaxLenRefused : Obligations.TransformAboveMaxLenRefused := by
  unfold Obligations.TransformAboveMaxLenRefused
  intro data key nonce c s hlong
  calc exec (.transform data key nonce c) s
      = execTransform data key nonce c s := by rw [exec]
    _ = .refused .lengthAboveMax := execTransform_long c s hlong

/-! One step of an idle instance (30_encoding R78). -/

@[simp] theorem State.withFetchWord_busy (s : State) (nbits w : Nat) : (s.withFetchWord nbits w).busy = false := by
  rw [State.withFetchWord, placeRequest]

@[simp] theorem State.withFetchWord_req (s : State) (nbits w : Nat) :
    (s.withFetchWord nbits w).req = some (tableRequest nbits w) := by
  rw [State.withFetchWord, placeRequest]

theorem step_of_request {s : State} {req : List Byte} (hidle : s.busy = false) (hreq : s.req = some req) :
    step s = serve req s := by
  simp [step, stepCore, hidle, hreq]

theorem serve_of_decode {req : List Byte} {i : Instr} (h : decode req = .ok i) (s : State) :
    serve req s = exec i s := by
  simp only [serve, h]

theorem step_of_decode {s : State} {req : List Byte} {i : Instr} (hidle : s.busy = false) (hreq : s.req = some req)
    (hdec : decode req = .ok i) : step s = exec i s := by
  rw [step_of_request hidle hreq, serve_of_decode hdec]

theorem decodeTableWord_eq_some_iff {nbits w : Nat} {i : Instr} :
    decodeTableWord nbits w = some i ↔ decode (tableRequest nbits w) = .ok i := by
  unfold decodeTableWord
  cases decode (tableRequest nbits w) <;> simp

/-- Settles O40: the table word's request is in place in an idle instance, so both clauses are one fact about `step`. -/
theorem stepRunsTheDecodedRequest : Obligations.StepRunsTheDecodedRequest := by
  unfold Obligations.StepRunsTheDecodedRequest
  constructor
  · exact fun s req i hidle hreq hdec => step_of_decode hidle hreq hdec
  · intro s nbits w i hword
    have hdec : decode (tableRequest nbits w) = .ok i := decodeTableWord_eq_some_iff.mp hword
    exact step_of_decode (s.withFetchWord_busy nbits w) (s.withFetchWord_req nbits w) hdec

end Sys2Proof.Machine

namespace Sys2Proof.Machine

/-! What the CORE answers, as a function of the request and the open parameters (10_state R29, R31). No state stands among
the arguments of `answerRequest`; that every request gets this answer, and that the buffers keep their sizes on the way, is
proved once (`serve_answers`). That the response depends on the request alone and that the invariant is kept are both
consequences. -/

/-- How an operation can end (R76, R174, R106, U4). -/
inductive Answer where
  /-- OK, with the bytes of OUT -/
  | ok (out : List Byte)
  /-- a failure of R170 -/
  | failed (f : Failure)
  /-- no meaning -/
  | refused (r : Refusal)

/-- R145: the largest `initial_counter + NB` with which a stream of at least one block ends with OK. -/
def counterLimit : OverflowPolicy → Nat
  | .lazy => 2 ^ 32
  | .eager => 2 ^ 32 - 1

/-- R145, R146: under the policy `p`, TRANSFORM of `len` bytes from counter `c` needs no block past the limit. -/
abbrev FitsPolicy (p : OverflowPolicy) (c : Word) (len : Nat) : Prop := c.toNat + numBlocks len ≤ counterLimit p

/-- R128, R141: the answer `f` gives on a key of 32 bytes and a nonce of 12, `InvalidInput` on others. -/
def answerKeyNonce (key nonce : List Byte) (f : Vector Byte 32 → Vector Byte 12 → Answer) : Answer :=
  match exactBytes 32 key, exactBytes 12 nonce with
  | some k, some n => f k n
  | _, _ => .failed .invalidInput

/-- The answer to an operation under the open parameters `p`. -/
def answer (p : Params) : Instr → Answer
  | .qr x pa pb pc pd =>
    if [pa, pb, pc, pd].Nodup then .ok (bytesOfWords (qrAt x pa pb pc pd)).toList else .refused .repeatedPositions
  | .block key counter nonce => answerKeyNonce key nonce fun k n => .ok (blockFn k counter n).toList
  | .transform data key nonce c =>
    if p.maxLen < data.length then .refused .lengthAboveMax
    else answerKeyNonce key nonce fun k n =>
      if FitsPolicy p.overflowPolicy c data.length then .ok (streamOutput k c n data)
      else .failed .counterOverflow
  | .selftest => .ok [if (blockFn stKey stCounter stNonce).toList = stExpect.toList then 0x01 else 0x00]

/-- The answer to a request (R78, R84, R85). -/
def answerRequest (p : Params) (req : List Byte) : Answer :=
  match decode req with
  | .ok i => answer p i
  | .error _ => .failed .invalidInput

/-- From `s` an operation ended as `r` with the answer `a`: by `respondOk` or `raiseFailure` in a state `t` with the open
parameters of `s`, whose buffers have their latched sizes if those of `s` have. -/
inductive Answers (s : State) : Answer → Result → Prop where
  | ok {t : State} {out : List Byte} (hout : t.mem.out = out) (hwf : Memory.wf s = true → Memory.wf t = true)
    (hparams : t.params = s.params) : Answers s (.ok out) (.next (respondOk t))
  | failed {t : State} (f : Failure) (hwf : Memory.wf s = true → Memory.wf t = true)
    (hparams : t.params = s.params) : Answers s (.failed f) (.next (raiseFailure f t))
  | refused (e : Refusal) : Answers s (.refused e) (.refused e)

/-! What an answer settles. -/

theorem Answers.observe_eq {s u : State} {a : Answer} {r q : Result} (h : Answers s a r) (h' : Answers u a q) :
    observe r = observe q := by
  cases h with
  | ok hout =>
    cases h' with
    | ok hout' => simp [observe, hout, hout']
  | failed f => cases h'; simp [observe]
  | refused e => cases h'; rfl

theorem Answers.status_eq {s u s' u' : State} {a : Answer} (h : Answers s a (.next s')) (h' : Answers u a (.next u')) :
    s'.status = u'.status := by
  cases h <;> cases h' <;> simp

theorem responseMatches_respondOk (s : State) : responseMatches (respondOk s) = true := by
  simp [responseMatches]

theorem responseMatches_raiseFailure (f : Failure) (s : State) : responseMatches (raiseFailure f s) = true := by
  cases f <;> simp [responseMatches, Failure.toStatus]

theorem inv_respondOk {s : State} (h : Memory.wf s = true) : Inv (respondOk s) :=
  ⟨respondOk_busy s, by simpa [Memory.wf_iff] using h, responseMatches_respondOk s⟩

theorem inv_raiseFailure (f : Failure) {s : State} (h : Memory.wf s = true) : Inv (raiseFailure f s) :=
  ⟨raiseFailure_busy f s, by simpa [Memory.wf_iff] using h, responseMatches_raiseFailure f s⟩

theorem Answers.inv {s t : State} {a : Answer} (h : Answers s a (.next t)) (hs : Memory.wf s = true) : Inv t := by
  cases h with
  | ok _ hwf => exact inv_respondOk (hwf hs)
  | failed f hwf => exact inv_raiseFailure f (hwf hs)

theorem Answers.params_eq {s t : State} {a : Answer} (h : Answers s a (.next t)) : t.params = s.params := by
  cases h with
  | ok _ _ hparams | failed _ _ hparams => simpa using hparams

/-! The length check of BLOCK and TRANSFORM. -/

/-- A key and a nonce are of the lengths that BLOCKFN takes, or one of them is not. -/
theorem key_nonce_cases (key nonce : List Byte) :
    (∃ (k : Vector Byte 32) (n : Vector Byte 12), k.toList = key ∧ n.toList = nonce) ∨
      (key.length ≠ 32 ∨ nonce.length ≠ 12) := by
  by_cases h : key.length = 32 ∧ nonce.length = 12
  · obtain ⟨k, hk⟩ := exists_vector_of_length h.1
    obtain ⟨n, hn⟩ := exists_vector_of_length h.2
    exact .inl ⟨k, n, hk, hn⟩
  · exact .inr (by omega)

@[simp] theorem answerKeyNonce_toList (k : Vector Byte 32) (n : Vector Byte 12)
    (f : Vector Byte 32 → Vector Byte 12 → Answer) : answerKeyNonce k.toList n.toList f = f k n := by
  simp [answerKeyNonce]

theorem answerKeyNonce_invalid {key nonce : List Byte} (f : Vector Byte 32 → Vector Byte 12 → Answer)
    (h : key.length ≠ 32 ∨ nonce.length ≠ 12) : answerKeyNonce key nonce f = .failed .invalidInput := by
  obtain h | h := h
  · simp [answerKeyNonce, exactBytes, h]
  · simp [answerKeyNonce, exactBytes, h]

/-! The loop of TRANSFORM under either policy. -/

theorem counterLimit_le (p : OverflowPolicy) : counterLimit p ≤ 2 ^ 32 := by
  cases p <;> simp [counterLimit]

/-- The first block is within the limit whatever the counter. -/
theorem toNat_le_counterLimit (c : Word) (p : OverflowPolicy) : c.toNat ≤ counterLimit p := by
  have hc : c.toNat < 2 ^ 32 := c.isLt
  cases p with
  | lazy | eager => rw [counterLimit]; omega

section Loop

variable {key : Vector Byte 32} {c : Word} {nonce : Vector Byte 12} {data : List Byte}

/-- The loop from block `j` on: either it stays within the policy's limit and all the blocks are done, or it raises
`CounterOverflow` at the start of some block. Unlike `driverLoop_lazy` and `driverLoop_eager` this says what state the
failure is raised in. -/
theorem driverLoop_cases (n : Nat) :
    ∀ (j : Nat) (s : State), Driving key c nonce data j s → j + n = numBlocks data.length →
      c.toNat + j ≤ counterLimit s.params.overflowPolicy →
      (∃ t, FitsPolicy s.params.overflowPolicy c data.length ∧
        driverLoop n s = .next t ∧ Driving key c nonce data (numBlocks data.length) t) ∨
      (∃ k t, ¬ FitsPolicy s.params.overflowPolicy c data.length ∧
        driverLoop n s = .next (raiseFailure .counterOverflow t) ∧ Driving key c nonce data k t) := by
  induction n with
  | zero =>
    intro j s h hj hc
    obtain rfl : j = numBlocks data.length := by omega
    exact .inl ⟨s, hc, rfl, h⟩
  | succ n ih =>
    intro j s h hj hc
    have hlt : 64 * j < data.length := by unfold numBlocks at hj; omega
    have hlimit := counterLimit_le s.params.overflowPolicy
    rw [driverLoop_succ h hlt]
    by_cases hpast : c.toNat + j = 2 ^ 32
    · rw [driverBlock_past h hpast, thenRun_ended (by simp)]
      exact .inr ⟨j, s, by omega, rfl, h⟩
    · obtain ⟨t, ht, hparams, heq⟩ := driverBlock_eq h hlt (by omega)
      rw [heq]
      split
      · next hend =>
        have hover : ¬ FitsPolicy s.params.overflowPolicy c data.length := by
          simp only [hend.1, FitsPolicy, counterLimit]; omega
        rw [thenRun_ended (by simp)]
        exact .inr ⟨j + 1, t, hover, rfl, ht⟩
      · next hgoes =>
        have hnext : c.toNat + (j + 1) ≤ counterLimit s.params.overflowPolicy := by
          cases hp : s.params.overflowPolicy with
          | lazy => simp only [counterLimit]; omega
          | eager => simp only [hp, counterLimit, true_and] at hc hgoes ⊢; omega
        rw [thenRun_running ht.busy, ← hparams]
        exact ih (j + 1) t ht (by omega) (hparams ▸ hnext)

theorem keeps_of_raiseFailure (f : Failure) (s : State) : DriverKeeps (raiseFailure f s) s := by constructor <;> rfl

/-- At the start of a block the buffers have their latched sizes: OUT holds the part of the output written so far. -/
theorem Driving.wf {k : Nat} {s t : State} (h : Driving key c nonce data k t) (hkeeps : DriverKeeps s t)
    (hklen : s.klen = 32) (hnlen : s.nlen = 12) : Memory.wf t = true := by
  rw [Memory.wf_iff, h.key_eq, h.nonce_eq, h.data_eq, h.len_eq, h.out_eq, h.outSize_eq, hkeeps.klen, hkeeps.nlen]
  simp [hklen, hnlen]

/-- Once the last block is done the whole output is written. -/
theorem Driving.out_of_end {s : State} (h : Driving key c nonce data (numBlocks data.length) s) :
    s.mem.out = streamOutput key c nonce data := by
  rw [h.out_eq, List.take_of_length_le]
  rw [streamOutput_length, numBlocks]
  omega

end Loop

/-! The answer of each operation. -/

theorem execQr_answers (x : Vector Word 16) (pa pb pc pd : Pos) (s : State) :
    Answers s (answer s.params (.qr x pa pb pc pd)) (execQr x pa pb pc pd s) := by
  rw [answer]
  split
  · next h =>
    rw [execQr_distinct x s h]
    exact .ok (by simp) (by simp +contextual [Memory.wf_iff]) (by simp)
  · next h =>
    rw [execQr, if_neg (by rwa [distinctPositions_iff])]
    exact .refused _

theorem execBlock_answers (key : List Byte) (counter : Word) (nonce : List Byte) (s : State) :
    Answers s (answer s.params (.block key counter nonce)) (execBlock key counter nonce s) := by
  rw [answer]
  obtain ⟨k, n, rfl, rfl⟩ | h := key_nonce_cases key nonce
  · rw [answerKeyNonce_toList, execBlock_valid]
    exact .ok (by simp) (by simp +contextual [Memory.wf_iff]) (by simp)
  · rw [answerKeyNonce_invalid _ h, execBlock_invalid counter s h]
    exact .failed _ (by simp +contextual [Memory.wf_iff]) (by simp)

/-- TRANSFORM with valid lengths and data within MAX_LEN ends as its loop does. -/
theorem execTransform_valid_answers (data : List Byte) (k : Vector Byte 32) (n : Vector Byte 12) (c : Word) (s : State)
    (hmax : data.length ≤ s.params.maxLen) :
    Answers s
      (if FitsPolicy s.params.overflowPolicy c data.length then .ok (streamOutput k c n data)
        else .failed .counterOverflow)
      (execTransform data k.toList n.toList c s) := by
  have hstart := startDriver_driving k c n data s
  have hloop := driverLoop_cases _ 0 _ hstart (Nat.zero_add _) (toNat_le_counterLimit c _)
  rw [execTransform_valid data k n c s hmax]
  simp only [State.startDriver_params, State.latchData_params, State.latchKeyNonce_params, State.accept_params] at hloop
  obtain ⟨t, hfits, hrun, ht⟩ | ⟨_, t, hover, hrun, ht⟩ := hloop
  · have hkeeps := driverLoop_keeps hrun
    rw [hrun, thenRun_running ht.busy, if_pos hfits]
    exact .ok ht.out_of_end (fun _ => ht.wf hkeeps (by simp) (by simp)) (by simpa using hkeeps.params)
  · have hkeeps := (driverLoop_keeps hrun).trans (keeps_of_raiseFailure .counterOverflow t)
    rw [hrun, thenRun_ended (by simp), if_neg hover]
    exact .failed _ (fun _ => ht.wf hkeeps (by simp) (by simp)) (by simpa using hkeeps.params)

theorem execTransform_answers (data key nonce : List Byte) (c : Word) (s : State) :
    Answers s (answer s.params (.transform data key nonce c)) (execTransform data key nonce c s) := by
  rw [answer]
  split
  · next hlong =>
    rw [execTransform_long c s hlong]
    exact .refused _
  · next hmax =>
    have hmax' : data.length ≤ s.params.maxLen := by omega
    obtain ⟨k, n, rfl, rfl⟩ | h := key_nonce_cases key nonce
    · rw [answerKeyNonce_toList]
      exact execTransform_valid_answers data k n c s hmax'
    · rw [answerKeyNonce_invalid _ h, execTransform_invalid c s h hmax']
      exact .failed _ (by simp +contextual [Memory.wf_iff]) (by simp)

theorem execSelftest_answers (s : State) : Answers s (answer s.params .selftest) (execSelftest s) := by
  rw [answer, execSelftest_eq]
  exact .ok (by simp) (by simp +contextual [Memory.wf_iff]) (by simp)

theorem exec_answers (i : Instr) (s : State) : Answers s (answer s.params i) (exec i s) := by
  cases i with
  | qr x pa pb pc pd => exact execQr_answers x pa pb pc pd s
  | block key counter nonce => exact execBlock_answers key counter nonce s
  | transform data key nonce c => exact execTransform_answers data key nonce c s
  | selftest => exact execSelftest_answers s

/-- R78: every request is answered as `answerRequest` says, whatever the state holds beside the open parameters. -/
theorem serve_answers (req : List Byte) (s : State) : Answers s (answerRequest s.params req) (serve req s) := by
  unfold answerRequest serve
  cases decode req with
  | ok i => exact exec_answers i s
  | error e => exact .failed (t := s.accept) .invalidInput (by simp [Memory.wf_iff]) (by simp)

theorem step_of_no_request {s : State} (hidle : s.busy = false) (hreq : s.req = none) : step s = .next s := by
  simp [step, stepCore, hidle, hreq]

/-- Settles O46: an idle instance without a request stays as it is; a request ends in an answer, which has the form of R76
and comes with buffers of their latched sizes. -/
theorem invariantKept : Obligations.InvariantKept := by
  unfold Obligations.InvariantKept
  intro s t hinv hstep
  have ⟨hidle, hwf, _⟩ := hinv
  cases hreq : s.req with
  | none =>
    rw [step_of_no_request hidle hreq] at hstep
    cases hstep
    exact ⟨hinv, rfl⟩
  | some req =>
    have hanswer := serve_answers req s
    rw [← step_of_request hidle hreq, hstep] at hanswer
    exact ⟨hanswer.inv hwf, hanswer.params_eq⟩

/-- Settles O45: both states give the answer of `answerRequest`, a function of the request and the open parameters. -/
theorem responseDependsOnRequestOnly : Obligations.ResponseDependsOnRequestOnly := by
  unfold Obligations.ResponseDependsOnRequestOnly
  intro s u req hs hu hreqs hrequ hparams
  have hanswers : Answers s (answerRequest s.params req) (step s) := step_of_request hs hreqs ▸ serve_answers req s
  have hansweru : Answers u (answerRequest s.params req) (step u) :=
    hparams ▸ step_of_request hu hrequ ▸ serve_answers req u
  refine ⟨hanswers.observe_eq hansweru, fun s' u' hs' hu' => ?_⟩
  rw [hs'] at hanswers
  rw [hu'] at hansweru
  exact hanswers.status_eq hansweru

end Sys2Proof.Machine

namespace Sys2Proof.Machine

/-! No access outside a buffer (20_memory R56, 60_exceptions R173). The accesses of every operation are shown to lie inside
its buffers on the way to `exec_answers`; none of the three ends of an operation is a fault. -/

theorem step_of_busy {s : State} (hbusy : s.busy = true) : step s = .refused .busyInstance := by
  simp [step, stepCore, hbusy]

theorem Answers.ne_fault {s : State} {a : Answer} {r : Result} (h : Answers s a r) (e : Fault) : r ≠ .fault e := by
  cases h with
  | ok | failed | refused => nofun

/-- Settles O44: a busy instance refuses, an idle one without a request waits, and a request is served with an answer. -/
theorem stepNeverFaults : Obligations.StepNeverFaults := by
  unfold Obligations.StepNeverFaults
  intro s e
  cases hbusy : s.busy with
  | true =>
    rw [step_of_busy hbusy]
    nofun
  | false =>
    cases hreq : s.req with
    | none =>
      rw [step_of_no_request hbusy hreq]
      nofun
    | some req =>
      rw [step_of_request hbusy hreq]
      exact (serve_answers req s).ne_fault e

end Sys2Proof.Machine

namespace Sys2Proof.Machine

/-! Fields of frames (30_encoding R71, R72): reading a field and writing it are inverse to each other. -/

@[simp] theorem highPos_posByte (p q : Pos) : highPos (posByte p q) = p := by
  rw [highPos, posByte, BitVec.extractLsb'_append_eq_left]
  simp

@[simp] theorem lowPos_posByte (p q : Pos) : lowPos (posByte p q) = q := by
  rw [lowPos, posByte, BitVec.extractLsb'_append_eq_right]
  simp

theorem posByte_highPos_lowPos (b : Byte) : posByte (highPos b) (lowPos b) = b := by
  have hofNat (v : BitVec 4) : BitVec.ofNat 4 v.toFin.val = v := by
    rw [BitVec.val_toFin, BitVec.ofNat_toNat, BitVec.setWidth_eq]
  calc posByte (highPos b) (lowPos b)
      = b.extractLsb' 4 4 ++ b.extractLsb' 0 4 := by rw [posByte, highPos, lowPos, hofNat, hofNat]
    _ = b.extractLsb' 0 8 := BitVec.extractLsb'_append_extractLsb'_eq_extractLsb' rfl
    _ = b := BitVec.extractLsb'_eq_self

theorem wordsOfBytes_getElem (b : Vector Byte 64) (i : Nat) (hi : i < 16) : (wordsOfBytes b)[i] = lew b i := by
  simp [wordsOfBytes]

theorem bytesOfWords_getElem (f : Vector Word 16) (i k : Nat) (hi : i < 16) (hk : k < 4) :
    (bytesOfWords f)[4 * i + k] = (bytes32 f[i])[k] := by
  have hword : (4 * i + k) / 4 = i := by omega
  have hbyte : (4 * i + k) % 4 = k := by omega
  simp [bytesOfWords, hword, hbyte]

/-- Word by word, from the round trip of R11. -/
@[simp] theorem wordsOfBytes_bytesOfWords (f : Vector Word 16) : wordsOfBytes (bytesOfWords f) = f := by
  ext1 i hi
  calc (wordsOfBytes (bytesOfWords f))[i]
      = le32 (bytes32 f[i])[0] (bytes32 f[i])[1] (bytes32 f[i])[2] (bytes32 f[i])[3] := by
        simp only [wordsOfBytes_getElem, lew, ← bytesOfWords_getElem f i _ hi, Nat.add_zero]
    _ = f[i] := le32_bytes32 f[i]

/-- Byte `k` of word `i`, from the other round trip of R11. -/
theorem bytesOfWords_wordsOfBytes (b : Vector Byte 64) : bytesOfWords (wordsOfBytes b) = b := by
  ext1 j hj
  obtain ⟨i, k, hk, rfl⟩ : ∃ i k, k < 4 ∧ j = 4 * i + k := ⟨j / 4, j % 4, by omega, by omega⟩
  have hword : bytes32 (wordsOfBytes b)[i] = #v[b[4 * i], b[4 * i + 1], b[4 * i + 2], b[4 * i + 3]] := by
    rw [wordsOfBytes_getElem, lew, bytes32_le32]
  rw [bytesOfWords_getElem _ i k (by omega) hk]
  match k, hk, hj with
  | 0, _, _ | 1, _, _ | 2, _, _ | 3, _, _ => simp only [hword]; rfl

theorem leNat_lt (bs : List Byte) : leNat bs < 256 ^ bs.length := by
  induction bs with
  | nil => decide
  | cons b bs ih =>
    have hb : b.toNat < 256 := b.isLt
    rw [leNat, List.length_cons, Nat.pow_succ']
    omega

theorem leNat_leBytes {n : Nat} : ∀ {v : Nat}, v < 256 ^ n → leNat (leBytes n v) = v := by
  induction n with
  | zero => intro v hv; rw [leBytes, leNat]; omega
  | succ n ih =>
    intro v hv
    rw [leBytes, leNat, ih (by omega), BitVec.toNat_ofNat]
    omega

theorem leBytes_leNat (bs : List Byte) : leBytes bs.length (leNat bs) = bs := by
  induction bs with
  | nil => rfl
  | cons b bs ih =>
    have hb : b.toNat < 256 := b.isLt
    have hhigh : (b.toNat + 256 * leNat bs) / 256 = leNat bs := by omega
    have hlow : BitVec.ofNat 8 (b.toNat + 256 * leNat bs) = b := by
      apply BitVec.eq_of_toNat_eq
      rw [BitVec.toNat_ofNat]
      omega
    rw [leNat, List.length_cons, leBytes, hhigh, hlow, ih]

/-- A length field of one byte (R73, D18). -/
theorem toNat_ofNat_length {l : List Byte} (h : l.length < 2 ^ 8) : (BitVec.ofNat 8 l.length).toNat = l.length :=
  Nat.mod_eq_of_lt h

theorem ofNat_length_of_eq_toNat {l : List Byte} {b : Byte} (h : l.length = b.toNat) : BitVec.ofNat 8 l.length = b := by
  rw [h, BitVec.ofNat_toNat, BitVec.setWidth_eq]

end Sys2Proof.Machine

namespace Sys2Proof

open Sys2Proof.Machine

/-! The opcode (30_encoding R79, R84): four values have a format, the others are reserved. -/

/-- R79, R84: the opcodes without a format. -/
abbrev ReservedOpcode (op : Byte) : Prop := op.toNat = 0 ∨ 5 ≤ op.toNat

theorem opcode_cases (op : Byte) :
    op = opQr ∨ op = opBlock ∨ op = opTransform ∨ op = opSelftest ∨ ReservedOpcode op := by
  simp only [opQr, opBlock, opTransform, opSelftest, ReservedOpcode]
  bv_omega

theorem ReservedOpcode.ne {op : Byte} (h : ReservedOpcode op) :
    op ≠ opQr ∧ op ≠ opBlock ∧ op ≠ opTransform ∧ op ≠ opSelftest := by
  refine ⟨?_, ?_, ?_, ?_⟩
  all_goals rintro rfl; exact absurd h (by decide)

@[simp] theorem decode_opQr (body : List Byte) : decode (opQr :: body) = decodeQ body := rfl
@[simp] theorem decode_opBlock (body : List Byte) : decode (opBlock :: body) = decodeB body := rfl
@[simp] theorem decode_opTransform (body : List Byte) : decode (opTransform :: body) = decodeT body := rfl
@[simp] theorem decode_opSelftest (body : List Byte) : decode (opSelftest :: body) = decodeS body := rfl

theorem decode_reserved {op : Byte} (h : ReservedOpcode op) (body : List Byte) :
    decode (op :: body) = .error (.reservedOpcode op) := by
  obtain ⟨hq, hb, ht, hs⟩ := h.ne
  rw [decode, if_neg hq, if_neg hb, if_neg ht, if_neg hs]

theorem neededLength_reserved {op : Byte} (h : ReservedOpcode op) (body : List Byte) :
    neededLength (op :: body) = .error (.reservedOpcode op) := by
  obtain ⟨hq, hb, ht, hs⟩ := h.ne
  unfold neededLength
  dsimp only
  rw [if_neg hq, if_neg hb, if_neg ht, if_neg hs]

/-! The headers of formats B and T (R73, R74): a body is too short for the header, or it is the header's fields and the
rest. On a body in that form the decoder and the implied length are functions of the fields. -/

theorem headerB_cases (body : List Byte) :
    body.length < 6 ∨ ∃ klen nlen c rest, body = klen :: nlen :: ((bytes32 c).toList ++ rest) := by
  match body with
  | klen :: nlen :: c0 :: c1 :: c2 :: c3 :: rest =>
    exact .inr ⟨klen, nlen, le32 c0 c1 c2 c3, rest, by rw [bytes32_le32]; rfl⟩
  | [] | [_] | [_, _] | [_, _, _] | [_, _, _, _] | [_, _, _, _, _] => exact .inl (by simp)

theorem headerT_cases (body : List Byte) :
    body.length < 14 ∨ ∃ klen nlen c len rest, len < 2 ^ 64 ∧
      body = klen :: nlen :: ((bytes32 c).toList ++ (leBytes 8 len ++ rest)) := by
  obtain hshort | ⟨klen, nlen, c, rest, rfl⟩ := headerB_cases body
  · exact .inl (by omega)
  · by_cases hlen : rest.length < 8
    · exact .inl (by grind)
    · have htake : (rest.take 8).length = 8 := by rw [List.length_take]; omega
      have hfield : leBytes 8 (leNat (rest.take 8)) = rest.take 8 := by simpa [htake] using leBytes_leNat (rest.take 8)
      have hlt : leNat (rest.take 8) < 2 ^ 64 := by simpa [htake] using leNat_lt (rest.take 8)
      exact .inr ⟨klen, nlen, c, leNat (rest.take 8), rest.drop 8, hlt, by rw [hfield, List.take_append_drop]⟩

theorem decodeB_short {body : List Byte} (h : body.length < 6) : decodeB body = .error .shortHeader := by
  unfold decodeB
  split
  · simp at h; omega
  · rfl

theorem neededLength_block_short {body : List Byte} (h : body.length < 6) :
    neededLength (opBlock :: body) = .error .shortHeader := by
  unfold neededLength
  dsimp only
  rw [if_neg (by decide), if_pos rfl]
  split
  · simp at h; omega
  · rfl

theorem decodeB_header (klen nlen : Byte) (c : Word) (rest : List Byte) :
    decodeB (klen :: nlen :: ((bytes32 c).toList ++ rest)) =
      if rest.length = klen.toNat + nlen.toNat then .ok (.block (rest.take klen.toNat) c (rest.drop klen.toNat))
      else .error .lengthMismatch := by
  conv_rhs => rw [← le32_bytes32 c]
  rfl

theorem neededLength_block_header (klen nlen : Byte) (c : Word) (rest : List Byte) :
    neededLength (opBlock :: klen :: nlen :: ((bytes32 c).toList ++ rest)) = .ok (7 + klen.toNat + nlen.toNat) := rfl

theorem decodeT_short {body : List Byte} (h : body.length < 14) : decodeT body = .error .shortHeader := by
  unfold decodeT
  split
  · simp at h; omega
  · rfl

theorem neededLength_transform_short {body : List Byte} (h : body.length < 14) :
    neededLength (opTransform :: body) = .error .shortHeader := by
  unfold neededLength
  dsimp only
  rw [if_neg (by decide), if_neg (by decide), if_pos rfl]
  split
  · simp at h; omega
  · rfl

theorem decodeT_header (klen nlen : Byte) (c : Word) {len : Nat} (hlen : len < 2 ^ 64) (rest : List Byte) :
    decodeT (klen :: nlen :: ((bytes32 c).toList ++ (leBytes 8 len ++ rest))) =
      if rest.length = klen.toNat + nlen.toNat + len then
        .ok (.transform (rest.drop (klen.toNat + nlen.toNat)) (rest.take klen.toNat)
          ((rest.drop klen.toNat).take nlen.toNat) c)
      else .error .lengthMismatch := by
  conv_rhs => rw [← le32_bytes32 c, ← leNat_leBytes (n := 8) hlen]
  rfl

theorem neededLength_transform_header (klen nlen : Byte) (c : Word) {len : Nat} (hlen : len < 2 ^ 64) (rest : List Byte) :
    neededLength (opTransform :: klen :: nlen :: ((bytes32 c).toList ++ (leBytes 8 len ++ rest))) =
      .ok (15 + klen.toNat + nlen.toNat + len) := by
  conv_rhs => rw [← leNat_leBytes (n := 8) hlen]
  rfl

/-! The decoder on frames (R72 to R75). -/

theorem wellFormed_block_iff {key nonce : List Byte} {c : Word} :
    (Instr.block key c nonce).WellFormed ↔ key.length < 2 ^ 8 ∧ nonce.length < 2 ^ 8 := by
  rw [Instr.WellFormed, Instr.wellFormed, Bool.and_eq_true, decide_eq_true_iff, decide_eq_true_iff]

theorem wellFormed_transform_iff {data key nonce : List Byte} {c : Word} :
    (Instr.transform data key nonce c).WellFormed ↔
      data.length < 2 ^ 64 ∧ key.length < 2 ^ 8 ∧ nonce.length < 2 ^ 8 := by
  rw [Instr.WellFormed, Instr.wellFormed, Bool.and_eq_true, Bool.and_eq_true, decide_eq_true_iff, decide_eq_true_iff,
    decide_eq_true_iff, and_assoc]

theorem decode_encode_block {key nonce : List Byte} (c : Word) (hkey : key.length < 2 ^ 8)
    (hnonce : nonce.length < 2 ^ 8) : decode (encode (.block key c nonce)) = .ok (.block key c nonce) := by
  rw [encode, List.append_assoc, decode_opBlock, decodeB_header, toNat_ofNat_length hkey, toNat_ofNat_length hnonce]
  simp

theorem decode_encode_transform {data key nonce : List Byte} (c : Word) (hdata : data.length < 2 ^ 64)
    (hkey : key.length < 2 ^ 8) (hnonce : nonce.length < 2 ^ 8) :
    decode (encode (.transform data key nonce c)) = .ok (.transform data key nonce c) := by
  simp only [encode, List.append_assoc]
  rw [decode_opTransform, decodeT_header _ _ c hdata, toNat_ofNat_length hkey, toNat_ofNat_length hnonce]
  simp [Nat.add_assoc]

theorem decode_encode {i : Instr} (h : i.WellFormed) : decode (encode i) = .ok i := by
  cases i with
  | qr x pa pb pc pd => simp [encode, decodeQ]
  | block key c nonce =>
    obtain ⟨hkey, hnonce⟩ := wellFormed_block_iff.mp h
    exact decode_encode_block c hkey hnonce
  | transform data key nonce c =>
    obtain ⟨hdata, hkey, hnonce⟩ := wellFormed_transform_iff.mp h
    exact decode_encode_transform c hdata hkey hnonce
  | selftest => rfl

/-- Settles O34, constructor by constructor: the length fields hold the lengths, so the decoder cuts the frame where the
encoder joined it. -/
theorem decodeEncode : Obligations.DecodeEncode := by
  unfold Obligations.DecodeEncode
  exact fun _ h => decode_encode h

/-! What each format decodes to. -/

theorem decodeQ_cases {body : List Byte} {i : Instr} (h : decodeQ body = .ok i) :
    i.WellFormed ∧ encode i = opQr :: body := by
  match body with
  | [] | [_] => simp [decodeQ] at h
  | pab :: pcd :: xin =>
    rw [decodeQ] at h
    split at h
    · next v hv =>
      obtain rfl := exactBytes_cases hv
      injection h with h
      subst h
      exact ⟨rfl, by simp only [encode, posByte_highPos_lowPos, bytesOfWords_wordsOfBytes]⟩
    · cases h

theorem decodeB_cases {body : List Byte} {i : Instr} (h : decodeB body = .ok i) :
    i.WellFormed ∧ encode i = opBlock :: body := by
  obtain hshort | ⟨klen, nlen, c, rest, rfl⟩ := headerB_cases body
  · rw [decodeB_short hshort] at h
    cases h
  · rw [decodeB_header] at h
    split at h
    · next hlen =>
      injection h with h
      subst h
      have hkey : (rest.take klen.toNat).length = klen.toNat := by rw [List.length_take]; omega
      have hnonce : (rest.drop klen.toNat).length = nlen.toNat := by rw [List.length_drop]; omega
      constructor
      · exact wellFormed_block_iff.mpr ⟨hkey.trans_lt klen.isLt, hnonce.trans_lt nlen.isLt⟩
      · rw [encode, ofNat_length_of_eq_toNat hkey, ofNat_length_of_eq_toNat hnonce, List.append_assoc,
          List.take_append_drop]
    · cases h

theorem decodeT_cases {body : List Byte} {i : Instr} (h : decodeT body = .ok i) :
    i.WellFormed ∧ encode i = opTransform :: body := by
  obtain hshort | ⟨klen, nlen, c, len, rest, hlt, rfl⟩ := headerT_cases body
  · rw [decodeT_short hshort] at h
    cases h
  · rw [decodeT_header _ _ _ hlt] at h
    split at h
    · next hlen =>
      injection h with h
      subst h
      have hkey : (rest.take klen.toNat).length = klen.toNat := by rw [List.length_take]; omega
      have hnonce : ((rest.drop klen.toNat).take nlen.toNat).length = nlen.toNat := by
        rw [List.length_take, List.length_drop]; omega
      have hdata : (rest.drop (klen.toNat + nlen.toNat)).length = len := by rw [List.length_drop]; omega
      constructor
      · exact wellFormed_transform_iff.mpr ⟨hdata.trans_lt hlt, hkey.trans_lt klen.isLt, hnonce.trans_lt nlen.isLt⟩
      · rw [encode, ofNat_length_of_eq_toNat hkey, ofNat_length_of_eq_toNat hnonce, hdata, ← List.drop_drop]
        simp only [List.append_assoc, List.take_append_drop]
    · cases h

theorem decodeS_cases {body : List Byte} {i : Instr} (h : decodeS body = .ok i) :
    i.WellFormed ∧ encode i = opSelftest :: body := by
  cases body with
  | nil => cases h; exact ⟨rfl, rfl⟩
  | cons b bs => cases h

/-- Settles O35: each format, decoded, gives back its length fields and its pieces, and their concatenation is the body. -/
theorem encodeDecode : Obligations.EncodeDecode := by
  unfold Obligations.EncodeDecode
  intro req i h
  cases req with
  | nil => cases h
  | cons op body =>
    obtain rfl | rfl | rfl | rfl | hop := opcode_cases op
    · exact decodeQ_cases h
    · exact decodeB_cases h
    · exact decodeT_cases h
    · exact decodeS_cases h
    · rw [decode_reserved hop] at h
      cases h

/-! The length a header implies (R78), format by format. -/

theorem exists_decodeQ_iff (body : List Byte) :
    (∃ i, decodeQ body = .ok i) ↔ neededLength (opQr :: body) = .ok (body.length + 1) := by
  have hneed : neededLength (opQr :: body) = .ok 67 := rfl
  rw [hneed]
  match body with
  | [] | [_] => simp [decodeQ]
  | pab :: pcd :: xin =>
    by_cases hlen : xin.length = 64
    · simp [decodeQ, exactBytes, hlen]
    · simp [decodeQ, exactBytes, hlen]

theorem exists_decodeB_iff (body : List Byte) :
    (∃ i, decodeB body = .ok i) ↔ neededLength (opBlock :: body) = .ok (body.length + 1) := by
  obtain hshort | ⟨klen, nlen, c, rest, rfl⟩ := headerB_cases body
  · simp [decodeB_short hshort, neededLength_block_short hshort]
  · rw [decodeB_header, neededLength_block_header]
    simp only [List.length_cons, List.length_append, Vector.length_toList, Except.ok.injEq]
    split
    · next hlen => exact iff_of_true ⟨_, rfl⟩ (by omega)
    · next hlen => exact iff_of_false nofun (by omega)

theorem exists_decodeT_iff (body : List Byte) :
    (∃ i, decodeT body = .ok i) ↔ neededLength (opTransform :: body) = .ok (body.length + 1) := by
  obtain hshort | ⟨klen, nlen, c, len, rest, hlt, rfl⟩ := headerT_cases body
  · simp [decodeT_short hshort, neededLength_transform_short hshort]
  · rw [decodeT_header _ _ _ hlt, neededLength_transform_header _ _ _ hlt]
    simp only [List.length_cons, List.length_append, Vector.length_toList, Laws.FrameLength.leBytes_length, Except.ok.injEq]
    split
    · next hlen => exact iff_of_true ⟨_, rfl⟩ (by omega)
    · next hlen => exact iff_of_false nofun (by omega)

theorem exists_decodeS_iff (body : List Byte) :
    (∃ i, decodeS body = .ok i) ↔ neededLength (opSelftest :: body) = .ok (body.length + 1) := by
  have hneed : neededLength (opSelftest :: body) = .ok 1 := rfl
  rw [hneed]
  cases body with
  | nil => simp [decodeS]
  | cons b bs => simp [decodeS]

/-- Settles O36, format by format. -/
theorem decodeIffNeededLength : Obligations.DecodeIffNeededLength := by
  unfold Obligations.DecodeIffNeededLength
  intro req
  cases req with
  | nil => simp [decode, neededLength]
  | cons op body =>
    obtain rfl | rfl | rfl | rfl | hop := opcode_cases op
    · exact exists_decodeQ_iff body
    · exact exists_decodeB_iff body
    · exact exists_decodeT_iff body
    · exact exists_decodeS_iff body
    · simp [decode_reserved hop, neededLength_reserved hop]

/-- Settles O37: a reserved opcode is none of the four that have a format. -/
theorem reservedOpcodesRejected : Obligations.ReservedOpcodesRejected := by
  unfold Obligations.ReservedOpcodesRejected
  exact ⟨rfl, fun op body hop => decode_reserved hop body⟩

/-- Settles O38: each written frame is the frame of its operation, and that operation is well-formed (`decode_encode`). -/
theorem writtenFramesDecode : Obligations.WrittenFramesDecode := by
  unfold Obligations.WrittenFramesDecode
  refine ⟨?_, ?_, ?_, ?_, ?_⟩
  · exact decode_encode (i := .selftest) rfl
  · exact decode_encode (i := .block stKey.toList 1 stNonce.toList) (by decide)
  · exact decode_encode (i := .block (List.replicate 33 0) 1 (List.replicate 12 0)) (by decide)
  · exact decode_encode (i := .transform [] (List.replicate 32 0) (List.replicate 12 0) 0xFFFFFFFF) (by decide)
  · exact decode_encode (i := .qr (initWords stKey 1 stNonce) 0 4 8 12) rfl

theorem encode_head?_of_assembleTransform {env : Names} {data key nonce : BytesOperand} {c : Word} {i : Instr}
    (h : assembleTransform env data key nonce c = some i) : (encode i).head? = some 0x03 := by
  unfold assembleTransform at h
  split at h
  · injection h with h
    subst h
    rfl
  · cases h

/-- Settles O39: the three spellings assemble by the one function `assembleTransform`. -/
theorem encryptDecryptAreTransform : Obligations.EncryptDecryptAreTransform := by
  unfold Obligations.EncryptDecryptAreTransform
  intro env data key nonce c
  exact ⟨rfl, rfl, fun i h => encode_head?_of_assembleTransform h⟩

end Sys2Proof

namespace Sys2Proof.Machine

/-! What the host gets from a request (30_encoding R76 to R78). -/

theorem rejectFrame_eq (s : State) :
    rejectFrame s = { s with status := .invalidInput, busy := false, req := none, rsp := some [0x01] } := rfl

theorem serve_of_decode_error {req : List Byte} {e : DecodeError} (h : decode req = .error e) (s : State) :
    serve req s = .next (rejectFrame s) := by
  simp only [serve, h]

/-- Settles O41: the failure entry of R174 on the accepted request writes these four fields. -/
theorem stepAnswersBadFrames : Obligations.StepAnswersBadFrames := by
  unfold Obligations.StepAnswersBadFrames
  intro s req e hidle hreq hdec
  rw [step_of_request hidle hreq, serve_of_decode_error hdec, rejectFrame_eq]

/-! The request is consumed: every operation takes it when it starts, and nothing puts one back. -/

theorem execQr_req {x : Vector Word 16} {pa pb pc pd : Pos} {s t : State} (h : execQr x pa pb pc pd s = .next t) :
    t.req = none := by
  by_cases hd : [pa, pb, pc, pd].Nodup
  · rw [execQr_distinct x s hd] at h
    injection h with h
    simp [← h]
  · rw [execQr, if_neg (by rwa [distinctPositions_iff])] at h
    cases h

theorem execBlock_req {key nonce : List Byte} {c : Word} {s t : State} (h : execBlock key c nonce s = .next t) :
    t.req = none := by
  obtain ⟨k, n, rfl, rfl⟩ | hlen := key_nonce_cases key nonce
  · rw [execBlock_valid] at h
    injection h with h
    simp [← h]
  · rw [execBlock_invalid c s hlen] at h
    injection h with h
    simp [← h]

theorem execTransform_req {data key nonce : List Byte} {c : Word} {s t : State}
    (h : execTransform data key nonce c s = .next t) : t.req = none := by
  by_cases hmax : s.params.maxLen < data.length
  · rw [execTransform_long c s hmax] at h
    cases h
  have hmax' : data.length ≤ s.params.maxLen := Nat.le_of_not_lt hmax
  obtain ⟨k, n, rfl, rfl⟩ | hlen := key_nonce_cases key nonce
  · rw [execTransform_valid data k n c s hmax'] at h
    obtain ⟨u, hrun, -, rfl⟩ | ⟨u, hrun, -, h⟩ := thenRun_cases h
    · simpa using (driverLoop_keeps hrun).req
    · injection h with h
      simpa [← h] using (driverLoop_keeps hrun).req
  · rw [execTransform_invalid c s hlen hmax'] at h
    injection h with h
    simp [← h]

theorem execSelftest_req {s t : State} (h : execSelftest s = .next t) : t.req = none := by
  rw [execSelftest_eq] at h
  injection h with h
  simp [← h]

theorem exec_req {i : Instr} {s t : State} (h : exec i s = .next t) : t.req = none := by
  cases i with
  | qr x pa pb pc pd => exact execQr_req h
  | block key c nonce => exact execBlock_req h
  | transform data key nonce c => exact execTransform_req h
  | selftest => exact execSelftest_req h

theorem serve_req {req : List Byte} {s t : State} (h : serve req s = .next t) : t.req = none := by
  cases hdec : decode req with
  | ok i => exact exec_req (serve_of_decode hdec s ▸ h)
  | error e =>
    rw [serve_of_decode_error hdec, rejectFrame_eq] at h
    injection h with h
    simp [← h]

/-! The form of an answer. -/

/-- R76, R77: an operation that ends leaves the CORE idle with STATUS and a response that agree. -/
theorem Answers.response {s t : State} {a : Answer} (h : Answers s a (.next t)) :
    t.busy = false ∧
      ((t.status = .ok ∧ ∃ payload, t.rsp = some (0x00 :: payload)) ∨
        (t.status = .invalidInput ∧ t.rsp = some [0x01]) ∨
        (t.status = .counterOverflow ∧ t.rsp = some [0x02])) := by
  cases h with
  | ok => exact ⟨respondOk_busy _, .inl ⟨respondOk_status _, _, respondOk_rsp _⟩⟩
  | failed f =>
    refine ⟨raiseFailure_busy f _, .inr ?_⟩
    cases f with
    | invalidInput => exact .inl ⟨rfl, rfl⟩
    | counterOverflow => exact .inr ⟨rfl, rfl⟩

theorem answerKeyNonce_eq_refused {key nonce : List Byte} {f : Vector Byte 32 → Vector Byte 12 → Answer} {r : Refusal}
    (h : answerKeyNonce key nonce f = .refused r) : ∃ k n, f k n = .refused r := by
  unfold answerKeyNonce at h
  split at h
  · exact ⟨_, _, h⟩
  · cases h

/-- The two requests the spec says to refuse (R106; U4, D17). -/
theorem answer_eq_refused {p : Params} {i : Instr} {r : Refusal} (h : answer p i = .refused r) :
    (r = .repeatedPositions ∧ ∃ x pa pb pc pd, i = .qr x pa pb pc pd ∧ ¬ [pa, pb, pc, pd].Nodup) ∨
      (r = .lengthAboveMax ∧ ∃ data key nonce c, i = .transform data key nonce c ∧ p.maxLen < data.length) := by
  cases i with
  | qr x pa pb pc pd =>
    rw [answer] at h
    split at h
    · cases h
    · next hrep => cases h; exact .inl ⟨rfl, x, pa, pb, pc, pd, rfl, hrep⟩
  | block key c nonce =>
    obtain ⟨k, n, hkn⟩ := answerKeyNonce_eq_refused h
    cases hkn
  | transform data key nonce c =>
    rw [answer] at h
    split at h
    · next hlong => cases h; exact .inr ⟨rfl, data, key, nonce, c, rfl, hlong⟩
    · obtain ⟨k, n, hkn⟩ := answerKeyNonce_eq_refused h
      split at hkn
      · cases hkn
      · cases hkn
  | selftest => cases h

theorem decode_of_answerRequest_refused {p : Params} {req : List Byte} {r : Refusal}
    (h : answerRequest p req = .refused r) : ∃ i, decode req = .ok i ∧ answer p i = .refused r := by
  unfold answerRequest at h
  split at h
  · next i hdec => exact ⟨i, hdec, h⟩
  · cases h

/-- Settles O43: the answer of a request is a response, or a refusal and then `answer_eq_refused` names its cause. -/
theorem everyRequestIsAnswered : Obligations.EveryRequestIsAnswered := by
  unfold Obligations.EveryRequestIsAnswered
  intro s req hidle hreq
  have hanswer := serve_answers req s
  rw [step_of_request hidle hreq]
  generalize ha : answerRequest s.params req = a at hanswer
  generalize hr : serve req s = r at hanswer ⊢
  cases r with
  | next t =>
    obtain ⟨hbusy, hrsp⟩ := hanswer.response
    exact .inl ⟨t, rfl, hbusy, serve_req hr, hrsp⟩
  | fault e => exact absurd rfl (hanswer.ne_fault e)
  | refused e =>
    cases hanswer
    obtain ⟨i, hdec, hi⟩ := decode_of_answerRequest_refused ha
    obtain ⟨rfl, x, pa, pb, pc, pd, rfl, hrep⟩ | ⟨rfl, data, key, nonce, c, rfl, hlong⟩ := answer_eq_refused hi
    · exact .inr (.inl ⟨rfl, x, pa, pb, pc, pd, hdec, hrep⟩)
    · exact .inr (.inr ⟨rfl, data, key, nonce, c, hdec, hlong⟩)

end Sys2Proof.Machine

namespace Sys2Proof.Machine

/-! The word primitives (40_quarter_round R100 to R102): ADD32, XOR32 and ROTL32 are the library's addition, exclusive or and
rotation. Each is invertible in its first operand, which is what R107 rests on. -/

theorem add32_left_injective (b : Word) : Function.Injective fun a => add32 a b :=
  fun _ _ h => (BitVec.add_left_inj b).mp h

theorem xor32_left_injective (b : Word) : Function.Injective fun a => xor32 a b :=
  fun _ _ h => (BitVec.xor_left_inj b).mp h

theorem rotl32_eq_rotateLeft (a : Word) {n : Nat} (hn : n < 32) : rotl32 a n = a.rotateLeft n :=
  (BitVec.rotateLeft_eq_rotateLeftAux_of_lt hn).symm

/-- R102: bit `j` of the result comes from bit `(j - n) mod 32`. -/
theorem rotl32_getLsbD (a : Word) {n j : Nat} (hn : n < 32) (hj : j < 32) :
    (rotl32 a n).getLsbD j = a.getLsbD ((j + (32 - n)) % 32) := by
  rw [rotl32_eq_rotateLeft a hn, BitVec.getLsbD_rotateLeft_of_le hn]
  by_cases hjn : j < n
  · have hi : (j + (32 - n)) % 32 = 32 - n + j := by omega
    simp [hjn, hi]
  · have hi : (j + (32 - n)) % 32 = j - n := by omega
    simp [hjn, hj, hi]

/-- R102: bit `i` moves to bit `(i + n) mod 32`. -/
theorem rotl32_getLsbD_add (a : Word) {n i : Nat} (hn : n < 32) (hi : i < 32) :
    (rotl32 a n).getLsbD ((i + n) % 32) = a.getLsbD i := by
  have hback : ((i + n) % 32 + (32 - n)) % 32 = i := by omega
  rw [rotl32_getLsbD a hn (Nat.mod_lt _ (by decide)), hback]

/-- No bit is lost (R102). -/
theorem rotl32_injective {n : Nat} (hn : n < 32) : Function.Injective fun a => rotl32 a n := by
  intro a b h
  refine BitVec.eq_of_getLsbD_eq fun i hi => ?_
  calc a.getLsbD i
      = (rotl32 a n).getLsbD ((i + n) % 32) := (rotl32_getLsbD_add a hn hi).symm
    _ = (rotl32 b n).getLsbD ((i + n) % 32) := congrArg (fun w : Word => w.getLsbD _) h
    _ = b.getLsbD i := rotl32_getLsbD_add b hn hi

theorem rotl32_toNat (a : Word) (n : Nat) :
    (rotl32 a n).toNat = (a.toNat <<< n) % 2 ^ 32 ||| a.toNat >>> (32 - n) := by
  rw [rotl32, BitVec.toNat_or, BitVec.toNat_shiftLeft, BitVec.toNat_ushiftRight]

theorem rotl32_zero (n : Nat) : rotl32 0 n = 0 := by
  simp [rotl32]

theorem rotl32_allOnes {n : Nat} (hn : n < 32) : rotl32 (BitVec.allOnes 32) n = BitVec.allOnes 32 := by
  refine BitVec.eq_of_getLsbD_eq fun j hj => ?_
  have hi : (j + (32 - n)) % 32 < 32 := Nat.mod_lt _ (by decide)
  simp only [rotl32_getLsbD _ hn hj, BitVec.getLsbD_allOnes, hi, hj]

theorem xorBytes_getD {p q : List Byte} {j : Nat} (hp : j < p.length) (hq : j < q.length) :
    (xorBytes p q).getD j 0 = p.getD j 0 ^^^ q.getD j 0 := by
  have hpq : j < (xorBytes p q).length := by simp [xorBytes, hp, hq]
  rw [List.getD_eq_getElem _ _ hpq, List.getD_eq_getElem _ _ hp, List.getD_eq_getElem _ _ hq]
  exact List.getElem_zipWith

/-- Settles O1: ADD32 is the addition of 32-bit vectors. -/
theorem add32IsModular : Obligations.Add32IsModular := by
  unfold Obligations.Add32IsModular
  intro a b c
  refine ⟨BitVec.toNat_add a b, by decide, by decide, BitVec.add_zero a, BitVec.add_comm a b, BitVec.add_assoc a b c, ?_,
    by decide⟩
  rw [BitVec.ofInt_add, BitVec.ofInt_toInt, BitVec.ofInt_toInt, add32]

/-- Settles O2: XOR32 is the exclusive or of 32-bit vectors, and XOR8 that of bytes, position by position. -/
theorem xor32IsBitwise : Obligations.Xor32IsBitwise := by
  unfold Obligations.Xor32IsBitwise
  intro a b
  refine ⟨fun i _ => BitVec.getLsbD_xor, BitVec.xor_self, BitVec.xor_zero, ?_, by decide, ?_⟩
  · rw [xor32, xor32, BitVec.xor_assoc, BitVec.xor_self, BitVec.xor_zero]
  · intro p q j i hp hq _
    rw [xorBytes_getD hp hq, BitVec.getLsbD_xor]

/-- Settles O3, from where each bit goes; the formula is the definition read as numbers. -/
theorem rotl32MovesBits : Obligations.Rotl32MovesBits := by
  unfold Obligations.Rotl32MovesBits
  intro a n _ hn
  have hn32 : n < 32 := by omega
  exact ⟨fun i hi => rotl32_getLsbD_add a hn32 hi, rotl32_toNat a n, rotl32_zero n, rotl32_allOnes hn32⟩

/-! QR4 (R103). Its twelve assignments are two runs of the same six, with other amounts. -/

/-- Lines 1 to 6 of R103 with the amounts `m` and `n`; lines 7 to 12 are the same with the other two amounts. -/
def halfQr4 (m n : Nat) (q : Word × Word × Word × Word) : Word × Word × Word × Word :=
  let (a, b, c, d) := q
  let a := add32 a b
  let d := rotl32 (xor32 d a) m
  let c := add32 c d
  let b := rotl32 (xor32 b c) n
  (a, b, c, d)

theorem qr4_eq_halves : qr4 = halfQr4 8 7 ∘ halfQr4 16 12 := rfl

/-- R107: the lines are undone from the last to the first. -/
theorem halfQr4_injective {m n : Nat} (hm : m < 32) (hn : n < 32) : Function.Injective (halfQr4 m n) := by
  rintro ⟨a, b, c, d⟩ ⟨a', b', c', d'⟩ h
  simp only [halfQr4, Prod.mk.injEq] at h
  obtain ⟨ha, hb, hc, hd⟩ := h
  rw [hc] at hb
  obtain rfl : b = b' := xor32_left_injective _ (rotl32_injective hn hb)
  rw [hd] at hc
  obtain rfl : c = c' := add32_left_injective _ hc
  rw [ha] at hd
  obtain rfl : d = d' := xor32_left_injective _ (rotl32_injective hm hd)
  obtain rfl : a = a' := add32_left_injective _ ha
  rfl

theorem qr4_injective : Function.Injective qr4 := by
  rw [qr4_eq_halves]
  exact (halfQr4_injective (by decide) (by decide)).comp (halfQr4_injective (by decide) (by decide))

/-- Settles O5: each ROTL32 is the library's rotation. -/
theorem qr4TwelveAssignments : Obligations.Qr4TwelveAssignments := by
  unfold Obligations.Qr4TwelveAssignments
  refine ⟨by decide, by decide, by decide, fun a b c d => ?_⟩
  simp (disch := decide) only [qr4, add32, xor32, rotl32_eq_rotateLeft]

/-! QRAT (R104). -/

section
variable {i j k l : Pos} (hd : [i, j, k, l].Nodup)

/-- A word at a position other than the four is unchanged. -/
theorem qrAt_getElem_of_ne (x : Vector Word 16) {m : Pos} (hi : m ≠ i) (hj : m ≠ j) (hk : m ≠ k) (hl : m ≠ l) :
    (qrAt x i j k l)[m] = x[m] := by
  simp only [Fin.getElem_fin, qrAt, Vector.getElem_set, Fin.val_inj, hi.symm, hj.symm, hk.symm, hl.symm, if_false]

include hd

/-- The words at the four positions become QR4 of them. -/
theorem qrAt_words (x : Vector Word 16) :
    ((qrAt x i j k l)[i], (qrAt x i j k l)[j], (qrAt x i j k l)[k], (qrAt x i j k l)[l]) =
      qr4 (x[i], x[j], x[k], x[l]) := by
  simp only [List.nodup_cons, List.mem_cons, List.not_mem_nil, not_or, or_false] at hd
  obtain ⟨⟨hij, hik, hil⟩, ⟨hjk, hjl⟩, hkl, -⟩ := hd
  simp only [Fin.getElem_fin, qrAt, Vector.getElem_set, Fin.val_inj, Ne.symm hij, Ne.symm hik, Ne.symm hil, Ne.symm hjk,
    Ne.symm hjl, Ne.symm hkl, if_true, if_false]

/-- R107: the four words are recovered from QR4 of them, and the others are where they were. -/
theorem qrAt_injective : Function.Injective fun x => qrAt x i j k l := by
  intro x y h
  have hxy (m : Pos) : (qrAt x i j k l)[m] = (qrAt y i j k l)[m] := congrArg (·[m]) h
  have hwords : qr4 (x[i], x[j], x[k], x[l]) = qr4 (y[i], y[j], y[k], y[l]) := by
    rw [← qrAt_words hd x, ← qrAt_words hd y, hxy, hxy, hxy, hxy]
  have hfour := qr4_injective hwords
  simp only [Prod.mk.injEq] at hfour
  obtain ⟨hi, hj, hk, hl⟩ := hfour
  have hall (m : Pos) : x[m] = y[m] := by
    by_cases hm : m = i ∨ m = j ∨ m = k ∨ m = l
    · obtain rfl | rfl | rfl | rfl := hm
      · exact hi
      · exact hj
      · exact hk
      · exact hl
    · simp only [not_or] at hm
      obtain ⟨mi, mj, mk, ml⟩ := hm
      rw [← qrAt_getElem_of_ne x mi mj mk ml, ← qrAt_getElem_of_ne y mi mj mk ml, hxy]
  exact Vector.ext fun m hm => hall ⟨m, hm⟩

end

/-- Settles O7: at distinct positions none of the four writes undoes another. -/
theorem qratChangesItsFourWords : Obligations.QratChangesItsFourWords := by
  unfold Obligations.QratChangesItsFourWords
  exact fun x i j k l hd => ⟨qrAt_words hd x, fun m hi hj hk hl => qrAt_getElem_of_ne x hi hj hk hl⟩

/-! ROUNDS (41_block R122 to R124). -/

/-- R122: the four positions of every group of the schedule are pairwise distinct. -/
theorem sched_nodup : ∀ g ∈ sched.toList, [g.1, g.2.1, g.2.2.1, g.2.2.2].Nodup := by
  simp [sched]

theorem foldl_qrGroup_injective : ∀ gs : List (Pos × Pos × Pos × Pos),
    (∀ g ∈ gs, [g.1, g.2.1, g.2.2.1, g.2.2.2].Nodup) → Function.Injective fun x => gs.foldl qrGroup x
  | [], _ => Function.injective_id
  | g :: gs, h =>
    have hgs := foldl_qrGroup_injective gs fun g' hg' => h g' (List.mem_cons_of_mem g hg')
    hgs.comp (qrAt_injective (h g List.mem_cons_self))

theorem doubleRound_injective : Function.Injective doubleRound :=
  foldl_qrGroup_injective sched.toList sched_nodup

theorem doubleRounds_injective : ∀ n, Function.Injective (doubleRounds n)
  | 0 => Function.injective_id
  | n + 1 => (doubleRounds_injective n).comp doubleRound_injective

theorem rounds_injective : Function.Injective rounds := doubleRounds_injective 10

theorem finite_workingState : Finite (Vector Word 16) :=
  Finite.of_injective (fun (x : Vector Word 16) (m : Pos) => x[m]) fun x y h =>
    Vector.ext fun m hm => congrFun h ⟨m, hm⟩

/-- Settles O6: there are finitely many quadruples and states, so what is injective is bijective. -/
theorem qr4IsBijective : Obligations.Qr4IsBijective := by
  unfold Obligations.Qr4IsBijective
  have hfinite := finite_workingState
  refine ⟨?_, fun i j k l hd => ?_, ?_⟩
  · exact Finite.injective_iff_bijective.mp qr4_injective
  · exact Finite.injective_iff_bijective.mp (qrAt_injective hd)
  · exact Finite.injective_iff_bijective.mp rounds_injective

/-! QR (R105, R106). -/

/-- R106: QR with repeated positions. -/
theorem execQr_repeated (x : Vector Word 16) {pa pb pc pd : Pos} (s : State) (h : ¬ [pa, pb, pc, pd].Nodup) :
    execQr x pa pb pc pd s = .refused .repeatedPositions := by
  rw [execQr, if_neg (by rwa [distinctPositions_iff])]

/-- Settles O9: QR tests the positions before anything else. -/
theorem qrRepeatedPositionsRefused : Obligations.QrRepeatedPositionsRefused := by
  unfold Obligations.QrRepeatedPositionsRefused
  exact fun x _ _ _ _ s hrep => execQr_repeated x s hrep

/-- All QR can answer: the equation of `execQr_distinct`, for distinct positions only. -/
theorem execQr_cases {x : Vector Word 16} {pa pb pc pd : Pos} {s t : State} (h : execQr x pa pb pc pd s = .next t) :
    [pa, pb, pc, pd].Nodup ∧
      t = respondOk ((State.latchQr x pa pb pc pd s.accept).qrAtLatched.withOut 64
        (bytesOfWords (qrAt x pa pb pc pd)).toList) := by
  by_cases hd : [pa, pb, pc, pd].Nodup
  · rw [execQr_distinct x s hd] at h
    injection h with h
    exact ⟨hd, h.symm⟩
  · rw [execQr_repeated x s hd] at h
    cases h

/-- Settles O8: the state of the response is QRAT of the operand, of which R104 says word by word what it holds. -/
theorem qrAnswersTheMixedState : Obligations.QrAnswersTheMixedState := by
  unfold Obligations.QrAnswersTheMixedState
  intro x pa pb pc pd s hd
  refine ⟨qrAt x pa pb pc pd, _, execQr_distinct x s hd, respondOk_status _, respondOk_busy _, ?_, qrAt_words hd x,
    fun m ha hb hc hd' => qrAt_getElem_of_ne x ha hb hc hd'⟩
  rw [respondOk_rsp, State.withOut_mem_out]
  rfl

/-- Filling OUT changes no readable buffer (R27). -/
@[simp] theorem State.withOut_read (n : Nat) (v : List Byte) (s : State) (b : Buf) (off len : Nat) :
    (s.withOut n v).mem.read b off len = s.mem.read b off len := by
  cases b with
  | key | nonce | data | ks => exact Memory.read_congr (by simp [Memory.bytes]) off len
  | out => rw [Memory.read_out, Memory.read_out]

/-- Settles O10: the updates of `execQr_cases` write X, the position latches, OUT, STATUS and the ports. -/
theorem qrFrame : Obligations.QrFrame := by
  unfold Obligations.QrFrame
  intro x pa pb pc pd s t h
  obtain ⟨-, rfl⟩ := execQr_cases h
  simp

end Sys2Proof.Machine

namespace Sys2Proof.Machine

/-! INIT (41_block R120). -/

theorem initWords_getElem_key (key : Vector Byte 32) (c : Word) (nonce : Vector Byte 12) (k : Nat) (h : k < 8) :
    (initWords key c nonce)[4 + k] = lew key k := by
  match k, h with
  | 0, _ | 1, _ | 2, _ | 3, _ | 4, _ | 5, _ | 6, _ | 7, _ => rfl

theorem initWords_getElem_nonce (key : Vector Byte 32) (c : Word) (nonce : Vector Byte 12) (k : Nat) (h : k < 3) :
    (initWords key c nonce)[13 + k] = lew nonce k := by
  match k, h with
  | 0, _ | 1, _ | 2, _ => rfl

/-- Settles O11: the words of the key and of the nonce are LEW of them, which is a number in base 2^8. -/
theorem initLaysOutTheState : Obligations.InitLaysOutTheState := by
  unfold Obligations.InitLaysOutTheState
  intro key ctr nonce s
  rw [State.initBlock_s]
  refine ⟨rfl, rfl, rfl, rfl, rfl, fun k => ?_, fun k => ?_⟩
  · rw [initWords_getElem_key key ctr nonce k k.isLt, lew_toNat]
  · rw [initWords_getElem_nonce key ctr nonce k k.isLt, lew_toNat]

/-! The schedule (R122): quarter-rounds at disjoint groups commute. -/

/-- The four positions of a group of the schedule. -/
def groupPositions (g : Pos × Pos × Pos × Pos) : List Pos := [g.1, g.2.1, g.2.2.1, g.2.2.2]

theorem qrGroup_getElem_of_notMem (x : Vector Word 16) {g : Pos × Pos × Pos × Pos} {m : Pos}
    (hm : m ∉ groupPositions g) : (qrGroup x g)[m] = x[m] := by
  simp only [groupPositions, List.mem_cons, List.not_mem_nil, or_false, not_or] at hm
  obtain ⟨hi, hj, hk, hl⟩ := hm
  exact qrAt_getElem_of_ne x hi hj hk hl

/-- R104: the new words of a group depend on its old words only. -/
theorem qrGroup_getElem_congr {x y : Vector Word 16} {g : Pos × Pos × Pos × Pos} (hg : (groupPositions g).Nodup)
    (hxy : ∀ m ∈ groupPositions g, x[m] = y[m]) : ∀ m ∈ groupPositions g, (qrGroup x g)[m] = (qrGroup y g)[m] := by
  obtain ⟨i, j, k, l⟩ := g
  simp only [groupPositions, List.forall_mem_cons] at hxy ⊢
  obtain ⟨hi, hj, hk, hl, -⟩ := hxy
  have hwords := (qrAt_words hg x).trans (.trans (by rw [hi, hj, hk, hl]) (qrAt_words hg y).symm)
  simpa [qrGroup] using hwords

section
variable {g h : Pos × Pos × Pos × Pos} (hdisj : (groupPositions g).Disjoint (groupPositions h))
include hdisj

/-- The words of `g` do not see whether `h` was done before or is done after. -/
theorem qrGroup_comm_getElem_of_mem (hg : (groupPositions g).Nodup) (x : Vector Word 16) {m : Pos}
    (hm : m ∈ groupPositions g) : (qrGroup (qrGroup x g) h)[m] = (qrGroup (qrGroup x h) g)[m] := by
  have hsame : ∀ p ∈ groupPositions g, x[p] = (qrGroup x h)[p] :=
    fun p hp => (qrGroup_getElem_of_notMem x (hdisj hp)).symm
  calc (qrGroup (qrGroup x g) h)[m]
      = (qrGroup x g)[m] := qrGroup_getElem_of_notMem _ (hdisj hm)
    _ = (qrGroup (qrGroup x h) g)[m] := qrGroup_getElem_congr hg hsame m hm

theorem qrGroup_comm (hg : (groupPositions g).Nodup) (hh : (groupPositions h).Nodup) (x : Vector Word 16) :
    qrGroup (qrGroup x g) h = qrGroup (qrGroup x h) g := by
  have hword (m : Pos) : (qrGroup (qrGroup x g) h)[m] = (qrGroup (qrGroup x h) g)[m] := by
    by_cases hmg : m ∈ groupPositions g
    · exact qrGroup_comm_getElem_of_mem hdisj hg x hmg
    by_cases hmh : m ∈ groupPositions h
    · exact (qrGroup_comm_getElem_of_mem hdisj.symm hh x hmh).symm
    · simp only [qrGroup_getElem_of_notMem _ hmg, qrGroup_getElem_of_notMem _ hmh]
  exact Vector.ext fun m hm => hword ⟨m, hm⟩

end

/-- R122: groups that share no position may be done in any order. -/
theorem foldl_qrGroup_perm {gs l : List (Pos × Pos × Pos × Pos)} (hgs : (gs.flatMap groupPositions).Nodup)
    (hl : l.Perm gs) (x : Vector Word 16) : l.foldl qrGroup x = gs.foldl qrGroup x := by
  obtain ⟨hnodup, hdisj⟩ := List.nodup_flatMap.mp hgs
  have hsymm : Std.Symm (Function.onFun List.Disjoint groupPositions) := ⟨fun _ _ => List.Disjoint.symm⟩
  have hcomm : ∀ g ∈ gs, ∀ h ∈ gs, ∀ y, qrGroup (qrGroup y g) h = qrGroup (qrGroup y h) g := by
    intro g hg h hh y
    by_cases heq : g = h
    · rw [heq]
    · exact qrGroup_comm (hdisj.forall hg hh heq) (hnodup g hg) (hnodup h hh) y
  exact (hl.symm.foldl_eq' hcomm x).symm

/-- A list of groups that covers the sixteen positions once names none twice. -/
theorem nodup_of_perm_finRange {l : List Pos} (h : l.Perm (List.finRange 16)) : l.Nodup :=
  h.nodup_iff.mpr (List.nodup_finRange 16)

/-- Settles O12: the four columns cover every position once, so they are disjoint and commute; the diagonals too. -/
theorem scheduleColumnsAndDiagonals : Obligations.ScheduleColumnsAndDiagonals := by
  unfold Obligations.ScheduleColumnsAndDiagonals
  intro columns diagonals positions
  have hcolumns : (columns.flatMap positions).Perm (List.finRange 16) := by decide
  have hdiagonals : (diagonals.flatMap positions).Perm (List.finRange 16) := by decide
  have hsched : sched.toList = columns ++ diagonals := rfl
  refine ⟨hsched, hcolumns, hdiagonals, fun l hl x => ?_, fun l hl x => ?_, fun x => ?_⟩
  · exact foldl_qrGroup_perm (nodup_of_perm_finRange hcolumns) hl x
  · exact foldl_qrGroup_perm (nodup_of_perm_finRange hdiagonals) hl x
  · rw [doubleRound, hsched, List.foldl_append]

/-! BLOCKFN (R124 to R127). -/

theorem doubleRounds_eq_iterate : ∀ n x, doubleRounds n x = doubleRound^[n] x
  | 0, _ => rfl
  | n + 1, x => doubleRounds_eq_iterate n (doubleRound x)

theorem feedForward_getElem_toNat (x s : Vector Word 16) (i : Nat) (hi : i < 16) :
    ((feedForward x s)[i]).toNat = (x[i].toNat + s[i].toNat) % 2 ^ 32 := by
  simp only [feedForward, Vector.getElem_ofFn, add32, BitVec.toNat_add, Fin.getElem_fin]

/-- Settles O13: a byte of BLOCKFN is a byte of a word of FEEDFORWARD, which is a sum modulo 2^32. -/
theorem blockfnFeedsForwardAndSerialises : Obligations.BlockfnFeedsForwardAndSerialises := by
  unfold Obligations.BlockfnFeedsForwardAndSerialises
  refine ⟨doubleRounds_eq_iterate 10, fun key ctr nonce i m => ?_⟩
  simp only [blockFn]
  rw [bytesOfWords_getElem _ i m i.isLt m.isLt, bytes32_getElem_toNat, feedForward_getElem_toNat]
  rfl

/-! The small-step view (R131). -/

@[simp] theorem seqAt_x (i : Nat) (s : State) : (seqAt i s).x = s.x := by unfold seqAt; rfl
@[simp] theorem seqAt_s (i : Nat) (s : State) : (seqAt i s).s = s.s := by unfold seqAt; rfl

theorem seqAt_dr {i : Nat} (hi : i ≤ 80) (s : State) : (seqAt i s).dr.val = i / 8 :=
  Nat.mod_eq_of_lt (by omega)

theorem seqAt_qi (i : Nat) (s : State) : (seqAt i s).qi.val = i % 8 := rfl

/-- `n` quarter-round steps from place `i` on, as long as they do not pass the end of the rounds. -/
theorem iterate_quarterStep_seqAt (n : Nat) : ∀ i, i + n ≤ 80 → ∀ s : State,
    State.quarterStep^[n] (seqAt i s) = seqAt (i + n) { s with x := quarterRounds n i s.x } := by
  induction n with
  | zero => intro i _ s; rfl
  | succ n ih =>
    intro i hi s
    rw [Function.iterate_succ_apply, quarterStep_seqAt (by omega), ih (i + 1) (by omega), Nat.add_right_comm, Nat.add_assoc]
    rfl

theorem iterate_quarterStep_startRounds {n : Nat} (hn : n ≤ 80) (s : State) :
    State.quarterStep^[n] s.startRounds = seqAt n { s with x := quarterRounds n 0 s.x } := by
  rw [← seqAt_zero, iterate_quarterStep_seqAt n 0 (by omega), Nat.zero_add]

theorem quarterRounds_eighty (x : Vector Word 16) : quarterRounds 80 0 x = rounds x :=
  quarterRounds_double 10 0 x

/-- Settles O14: the course of the steps is `iterate_quarterStep_startRounds`; at 80 it has made ten double rounds. -/
theorem smallStepAgreesWithBlockfn : Obligations.SmallStepAgreesWithBlockfn := by
  unfold Obligations.SmallStepAgreesWithBlockfn
  intro key ctr nonce s start
  have hend : State.quarterStep^[80] start = seqAt 80 _ := iterate_quarterStep_startRounds (Nat.le_refl 80) _
  refine ⟨fun n hn => ?_, ?_, ?_, State.runBlock_mem_ks key ctr nonce s⟩
  · have hcourse : State.quarterStep^[n] start = seqAt n _ := iterate_quarterStep_startRounds hn _
    rw [hcourse]
    exact ⟨seqAt_dr hn _, seqAt_qi n _, rfl⟩
  · rw [hend]
    simp [start, quarterRounds_eighty]
  · rw [hend]
    simp [quarterRounds_eighty, blockFn]

/-! BLOCK (R128). -/

/-- Settles O16: BLOCK ends by `respondOk` with the block in OUT. -/
theorem blockAnswersBlockfn : Obligations.BlockAnswersBlockfn := by
  unfold Obligations.BlockAnswersBlockfn
  intro key counter nonce s
  refine ⟨_, execBlock_valid key counter nonce s, respondOk_status _, respondOk_busy _, ?_⟩
  rw [respondOk_rsp, State.withOut_mem_out]
  rfl

/-- Settles O17: the length check comes before anything is computed; what has run until then writes latches and ports. -/
theorem blockWrongLengthInvalidInput : Obligations.BlockWrongLengthInvalidInput := by
  unfold Obligations.BlockWrongLengthInvalidInput
  intro key counter nonce s hlen
  refine ⟨_, execBlock_invalid counter s hlen, raiseFailure_status _ _, raiseFailure_busy _ _, raiseFailure_rsp _ _, ?_⟩
  simp

/-- All BLOCK can answer: the equation of `execBlock_valid`, or that of `execBlock_invalid`. -/
theorem execBlock_cases {key nonce : List Byte} {c : Word} {s t : State} (h : execBlock key c nonce s = .next t) :
    (∃ (k : Vector Byte 32) (n : Vector Byte 12), k.toList = key ∧ n.toList = nonce ∧
      t = respondOk (((s.accept.latchKeyNonce key nonce c).runBlock k c n).withOut 64 (blockFn k c n).toList)) ∨
    ((key.length ≠ 32 ∨ nonce.length ≠ 12) ∧
      t = raiseFailure .invalidInput (s.accept.latchKeyNonce key nonce c)) := by
  obtain ⟨k, n, rfl, rfl⟩ | hlen := key_nonce_cases key nonce
  · rw [execBlock_valid] at h
    injection h with h
    exact .inl ⟨k, n, rfl, rfl, h.symm⟩
  · rw [execBlock_invalid c s hlen] at h
    injection h with h
    exact .inr ⟨hlen, h.symm⟩

theorem execBlock_mem_data {key nonce : List Byte} {c : Word} {s t : State} (h : execBlock key c nonce s = .next t) :
    t.mem.data = s.mem.data := by
  obtain ⟨k, n, -, -, rfl⟩ | ⟨-, rfl⟩ := execBlock_cases h
  · simp
  · simp

/-- Settles O18: on either path the updates write the latches of key, nonce and counter, the block's own registers, KS, OUT,
STATUS and the ports. -/
theorem blockFrame : Obligations.BlockFrame := by
  unfold Obligations.BlockFrame
  intro key counter nonce s t h
  have hdata (off n : Nat) : t.mem.read .data off n = s.mem.read .data off n :=
    Memory.read_congr (b := .data) (execBlock_mem_data h) off n
  obtain ⟨k, n, -, -, rfl⟩ | ⟨-, rfl⟩ := execBlock_cases h
  · simpa using hdata
  · simpa using hdata

end Sys2Proof.Machine

namespace Sys2Proof.Machine

/-! The stream (42_stream R146): byte `i` of the output is byte `i` of the data under its keystream byte. -/

section Stream

variable (key : Vector Byte 32) (c : Word) (nonce : Vector Byte 12)

@[simp] theorem streamOutput_getElem (data : List Byte) (i : Nat) (h : i < (streamOutput key c nonce data).length) :
    (streamOutput key c nonce data)[i] =
      data[i]'(streamOutput_length key c nonce data ▸ h) ^^^ keystreamByte key c nonce i := by
  simp [streamOutput]

/-- R148: the same keystream byte cancels itself. -/
@[simp] theorem streamOutput_streamOutput (data : List Byte) :
    streamOutput key c nonce (streamOutput key c nonce data) = data := by
  refine List.ext_getElem (by simp) fun i _ _ => ?_
  rw [streamOutput_getElem, streamOutput_getElem, BitVec.xor_assoc, BitVec.xor_self, BitVec.xor_zero]

/-- R150: `m` blocks further on, the keystream is that of the counter advanced by `m`. -/
theorem keystreamByte_blocks_add (m i : Nat) :
    keystreamByte key c nonce (64 * m + i) = keystreamByte key (c + BitVec.ofNat 32 m) nonce i := by
  have hblock : (64 * m + i) / 64 = m + i / 64 := by omega
  have hbyte : (64 * m + i) % 64 = i % 64 := by omega
  simp only [keystreamByte, hblock, hbyte, BitVec.ofNat_add, BitVec.add_assoc]

/-- R150: after a whole number of blocks the stream goes on from the advanced counter. -/
theorem streamOutput_append {a : List Byte} (b : List Byte) (ha : a.length % 64 = 0) :
    streamOutput key c nonce (a ++ b) =
      streamOutput key c nonce a ++ streamOutput key (c + BitVec.ofNat 32 (a.length / 64)) nonce b := by
  have hlen : 64 * (a.length / 64) = a.length := by omega
  have hkeystream (i : Nat) : keystreamByte key c nonce (i + a.length) =
      keystreamByte key (c + BitVec.ofNat 32 (a.length / 64)) nonce i := by
    rw [← keystreamByte_blocks_add, hlen, Nat.add_comm]
  simp only [streamOutput, List.mapIdx_append, hkeystream]

/-- R151: zero bytes show the keystream. -/
theorem streamOutput_zeros_getElem (n i : Nat) (h : i < (streamOutput key c nonce (List.replicate n 0)).length) :
    (streamOutput key c nonce (List.replicate n 0))[i] = keystreamByte key c nonce i := by
  rw [streamOutput_getElem, List.getElem_replicate]
  exact BitVec.zero_xor

/-- R151: the first 64 bytes of the keystream are one block. -/
theorem streamOutput_zeros_block :
    streamOutput key c nonce (List.replicate 64 0) = (blockFn key c nonce).toList := by
  refine List.ext_getElem (by simp) fun i hi _ => ?_
  rw [streamOutput_length, List.length_replicate] at hi
  have hblock : i / 64 = 0 := by omega
  have hbyte : i % 64 = i := by omega
  rw [streamOutput_zeros_getElem]
  simp [keystreamByte, hblock, hbyte]

end Stream

/-! Which streams the policies accept (42_stream R145, R146). -/

theorem fitsPolicy_lazy_iff {c : Word} {len : Nat} :
    FitsPolicy .lazy c len ↔ numBlocks len = 0 ∨ c.toNat + numBlocks len ≤ 2 ^ 32 := by
  have hc : c.toNat < 2 ^ 32 := c.isLt
  simp only [FitsPolicy, counterLimit]
  omega

/-- R145: the boundary case is all the policies differ in. -/
theorem fitsPolicy_eager_iff {c : Word} {len : Nat} :
    FitsPolicy .eager c len ↔ FitsPolicy .lazy c len ∧ ¬ (1 ≤ numBlocks len ∧ c.toNat + numBlocks len = 2 ^ 32) := by
  have hc : c.toNat < 2 ^ 32 := c.isLt
  simp only [FitsPolicy, counterLimit]
  omega

/-- R150: a part before a cut needs no more blocks than the whole. -/
theorem FitsPolicy.mono {p : OverflowPolicy} {c : Word} {m n : Nat} (h : FitsPolicy p c n) (hmn : m ≤ n) :
    FitsPolicy p c m := by
  simp only [FitsPolicy, numBlocks] at h ⊢
  omega

theorem numBlocks_blocks_add {m : Nat} (n : Nat) (hm : m % 64 = 0) : numBlocks (m + n) = m / 64 + numBlocks n := by
  simp only [numBlocks]
  omega

/-- R150: the part after a cut fits from the advanced counter. If that counter has wrapped it is 0 and no block is left. -/
theorem FitsPolicy.after_blocks {p : OverflowPolicy} {c : Word} {m n : Nat} (hm : m % 64 = 0)
    (h : FitsPolicy p c (m + n)) : FitsPolicy p (c + BitVec.ofNat 32 (m / 64)) n := by
  have hle : (c + BitVec.ofNat 32 (m / 64)).toNat ≤ c.toNat + m / 64 := by
    rw [BitVec.toNat_add, BitVec.toNat_ofNat, Nat.add_mod_mod]
    exact Nat.mod_le _ _
  rw [FitsPolicy, numBlocks_blocks_add n hm] at h
  rw [FitsPolicy]
  omega

/-- R150: the whole fits where the part after the cut does and its counter has not wrapped. -/
theorem FitsPolicy.of_after_blocks {p : OverflowPolicy} {c : Word} {m n : Nat} (hm : m % 64 = 0)
    (hc : c.toNat + m / 64 < 2 ^ 32) (h : FitsPolicy p (c + BitVec.ofNat 32 (m / 64)) n) : FitsPolicy p c (m + n) := by
  have heq : (c + BitVec.ofNat 32 (m / 64)).toNat = c.toNat + m / 64 := by
    rw [BitVec.toNat_add, BitVec.toNat_ofNat, Nat.add_mod_mod, Nat.mod_eq_of_lt hc]
  rw [FitsPolicy, heq] at h
  rw [FitsPolicy, numBlocks_blocks_add n hm]
  omega

/-! What TRANSFORM answers (R141 to R146). -/

theorem Answers.exists_of_ok {s : State} {out : List Byte} {r : Result} (h : Answers s (.ok out) r) :
    ∃ t, r = .next t ∧ t.status = .ok ∧ t.busy = false ∧ t.rsp = some (0x00 :: out) := by
  cases h with
  | ok hout => exact ⟨_, rfl, respondOk_status _, respondOk_busy _, hout ▸ respondOk_rsp _⟩

theorem Answers.exists_of_failed {s : State} {f : Failure} {r : Result} (h : Answers s (.failed f) r) :
    ∃ t, r = .next t ∧ t.status = f.toStatus ∧ t.busy = false ∧ t.rsp = some [f.toStatus.code] := by
  cases h with
  | failed => exact ⟨_, rfl, raiseFailure_status _ _, raiseFailure_busy _ _, raiseFailure_rsp _ _⟩

theorem respondOk_keeps (s : State) : DriverKeeps s (respondOk s) := by constructor <;> rfl

section Transform

variable {data : List Byte} {c : Word} {s : State}

theorem exec_transform_of_fits (k : Vector Byte 32) (n : Vector Byte 12) (hmax : data.length ≤ s.params.maxLen)
    (hfits : FitsPolicy s.params.overflowPolicy c data.length) :
    ∃ t, exec (.transform data k.toList n.toList c) s = .next t ∧ t.status = .ok ∧ t.busy = false ∧
      t.rsp = some (0x00 :: streamOutput k c n data) := by
  have hanswer := execTransform_valid_answers data k n c s hmax
  rw [if_pos hfits] at hanswer
  exact hanswer.exists_of_ok

theorem exec_transform_of_not_fits (k : Vector Byte 32) (n : Vector Byte 12) (hmax : data.length ≤ s.params.maxLen)
    (hover : ¬ FitsPolicy s.params.overflowPolicy c data.length) :
    ∃ t, exec (.transform data k.toList n.toList c) s = .next t ∧ t.status = .counterOverflow ∧ t.busy = false ∧
      t.rsp = some [0x02] := by
  have hanswer := execTransform_valid_answers data k n c s hmax
  rw [if_neg hover] at hanswer
  exact hanswer.exists_of_failed

variable {key nonce : List Byte} {t : State}

/-- All TRANSFORM can answer: OK after the last block, `CounterOverflow` out of the loop, or `InvalidInput` before it. -/
theorem execTransform_cases (h : execTransform data key nonce c s = .next t) :
    data.length ≤ s.params.maxLen ∧
      ((∃ (k : Vector Byte 32) (n : Vector Byte 12) (u : State), k.toList = key ∧ n.toList = nonce ∧
          FitsPolicy s.params.overflowPolicy c data.length ∧
          DriverKeeps ((s.accept.latchKeyNonce key nonce c).latchData data).startDriver u ∧
          Driving k c n data (numBlocks data.length) u ∧ t = respondOk u) ∨
        (∃ (k : Vector Byte 32) (n : Vector Byte 12) (u : State), k.toList = key ∧ n.toList = nonce ∧
          ¬ FitsPolicy s.params.overflowPolicy c data.length ∧
          DriverKeeps ((s.accept.latchKeyNonce key nonce c).latchData data).startDriver u ∧
          t = raiseFailure .counterOverflow u) ∨
        ((key.length ≠ 32 ∨ nonce.length ≠ 12) ∧
          t = raiseFailure .invalidInput ((s.accept.latchKeyNonce key nonce c).latchData data))) := by
  by_cases hlong : s.params.maxLen < data.length
  · rw [execTransform_long c s hlong] at h
    cases h
  have hmax : data.length ≤ s.params.maxLen := Nat.le_of_not_lt hlong
  refine ⟨hmax, ?_⟩
  obtain ⟨k, n, rfl, rfl⟩ | hlen := key_nonce_cases key nonce
  · have hloop := driverLoop_cases _ 0 _ (startDriver_driving k c n data s) (Nat.zero_add _) (toNat_le_counterLimit c _)
    simp only [State.startDriver_params, State.latchData_params, State.latchKeyNonce_params, State.accept_params] at hloop
    rw [execTransform_valid data k n c s hmax] at h
    obtain ⟨u, hfits, hrun, hu⟩ | ⟨_, u, hover, hrun, -⟩ := hloop
    · rw [hrun, thenRun_running hu.busy] at h
      injection h with h
      exact .inl ⟨k, n, u, rfl, rfl, hfits, driverLoop_keeps hrun, hu, h.symm⟩
    · rw [hrun, thenRun_ended (raiseFailure_busy _ _)] at h
      injection h with h
      have hkeeps := (driverLoop_keeps hrun).trans (keeps_of_raiseFailure .counterOverflow u)
      exact .inr (.inl ⟨k, n, u, rfl, rfl, hover, hkeeps, h.symm⟩)
  · rw [execTransform_invalid c s hlen hmax] at h
    injection h with h
    exact .inr (.inr ⟨hlen, h.symm⟩)

/-- On every path the operands are latched, and nothing after that writes a latch or an input buffer; only the size of OUT
is then still open. -/
theorem execTransform_keeps (h : execTransform data key nonce c s = .next t) :
    ∃ size, DriverKeeps (((s.accept.latchKeyNonce key nonce c).latchData data).allocOut size) t := by
  have hstart (u : State) : DriverKeeps (u.allocOut u.len) u.startDriver := by constructor <;> rfl
  obtain ⟨-, ⟨_, _, u, -, -, -, hu, -, rfl⟩ | ⟨_, _, u, -, -, -, hu, rfl⟩ | ⟨-, rfl⟩⟩ := execTransform_cases h
  · exact ⟨_, (hstart _).trans (hu.trans (respondOk_keeps u))⟩
  · exact ⟨_, (hstart _).trans (hu.trans (raiseFailure_keeps _ u))⟩
  · exact ⟨s.mem.outSize, by constructor <;> rfl⟩

/-- A response with status byte 0x00 carries the stream of a key and a nonce of the right lengths. -/
theorem exec_transform_of_ok {out : List Byte} (h : exec (.transform data key nonce c) s = .next t)
    (hrsp : t.rsp = some (0x00 :: out)) :
    data.length ≤ s.params.maxLen ∧ FitsPolicy s.params.overflowPolicy c data.length ∧
      ∃ (k : Vector Byte 32) (n : Vector Byte 12), k.toList = key ∧ n.toList = nonce ∧ out = streamOutput k c n data := by
  obtain ⟨hmax, ⟨k, n, u, hk, hn, hfits, -, hu, rfl⟩ | ⟨_, _, u, -, -, -, -, rfl⟩ | ⟨-, rfl⟩⟩ := execTransform_cases h
  · rw [respondOk_rsp, hu.out_of_end] at hrsp
    injection hrsp with hrsp
    injection hrsp with _ hout
    exact ⟨hmax, hfits, k, n, hk, hn, hout.symm⟩
  · simp [Failure.toStatus, Status.code] at hrsp
  · simp [Failure.toStatus, Status.code] at hrsp

/-- The response 0x02 comes from a stream that does not fit. -/
theorem exec_transform_of_overflow (h : exec (.transform data key nonce c) s = .next t) (hrsp : t.rsp = some [0x02]) :
    data.length ≤ s.params.maxLen ∧ ¬ FitsPolicy s.params.overflowPolicy c data.length ∧
      ∃ (k : Vector Byte 32) (n : Vector Byte 12), k.toList = key ∧ n.toList = nonce := by
  obtain ⟨hmax, ⟨_, _, u, -, -, -, -, -, rfl⟩ | ⟨k, n, u, hk, hn, hover, -, rfl⟩ | ⟨-, rfl⟩⟩ := execTransform_cases h
  · simp [Status.code] at hrsp
  · exact ⟨hmax, hover, k, n, hk, hn⟩
  · simp [Failure.toStatus, Status.code] at hrsp

end Transform

/-- Settles O19: R146 is `FitsPolicy` under `lazy`, and the output is `streamOutput`, byte by byte. -/
theorem transformClosedForm : Obligations.TransformClosedForm := by
  unfold Obligations.TransformClosedForm
  intro data key nonce c s hlazy hmax nb
  have hc : c.toNat < 2 ^ 32 := c.isLt
  have hiff : FitsPolicy s.params.overflowPolicy c data.length ↔ nb = 0 ∨ c.toNat + nb ≤ 2 ^ 32 :=
    hlazy ▸ fitsPolicy_lazy_iff
  constructor
  · intro hnb
    obtain ⟨t, ht, hok, hidle, hrsp⟩ := exec_transform_of_fits key nonce hmax (hiff.mpr hnb)
    refine ⟨t, _, ht, hok, hidle, hrsp, streamOutput_length _ _ _ _, fun i hi => ⟨?_, ?_⟩⟩
    · omega
    · have hctr : BitVec.ofNat 32 (c.toNat + i / 64) = c + BitVec.ofNat 32 (i / 64) := by
        rw [BitVec.ofNat_add, BitVec.ofNat_toNat, BitVec.setWidth_eq]
      rw [List.getElem?_eq_getElem (by simpa using hi), streamOutput_getElem, keystreamByte]
      simp only [hctr]
  · exact fun hnb => exec_transform_of_not_fits key nonce hmax (mt hiff.mp hnb)

/-- Settles O20: on the boundary the stream does not fit `eager`; off it, it fits both policies or neither. -/
theorem eagerDiffersOnBoundaryOnly : Obligations.EagerDiffersOnBoundaryOnly := by
  unfold Obligations.EagerDiffersOnBoundaryOnly
  intro data key nonce c s e hlazy heager hmaxLen hmax nb
  have hmaxe : data.length ≤ e.params.maxLen := hmaxLen ▸ hmax
  have hiff : FitsPolicy e.params.overflowPolicy c data.length ↔
      FitsPolicy s.params.overflowPolicy c data.length ∧ ¬ (1 ≤ nb ∧ c.toNat + nb = 2 ^ 32) := by
    rw [hlazy, heager]
    exact fitsPolicy_eager_iff
  constructor
  · intro hboundary
    exact exec_transform_of_not_fits key nonce hmaxe fun hfits => (hiff.mp hfits).2 hboundary
  · intro hboundary
    have hanswere := execTransform_valid_answers data key nonce c e hmaxe
    rw [if_congr (hiff.trans (and_iff_left hboundary)) rfl rfl] at hanswere
    exact hanswere.observe_eq (execTransform_valid_answers data key nonce c s hmax)

/-- Settles O24: the output is as long as the data, so it fits too, and its stream is the data again. -/
theorem transformInvolution : Obligations.TransformInvolution := by
  unfold Obligations.TransformInvolution
  intro data key nonce c s t h
  constructor
  · intro out hrsp s' hparams
    obtain ⟨hmax, hfits, k, n, rfl, rfl, rfl⟩ := exec_transform_of_ok h hrsp
    have hlen : (streamOutput k c n data).length = data.length := streamOutput_length k c n data
    rw [← hparams, ← hlen] at hmax hfits
    obtain ⟨t', ht', hok, -, hrsp'⟩ := exec_transform_of_fits k n hmax hfits
    exact ⟨t', ht', hok, streamOutput_streamOutput k c n data ▸ hrsp'⟩
  · intro hrsp data' s' hlen hparams
    obtain ⟨hmax, hover, k, n, rfl, rfl⟩ := exec_transform_of_overflow h hrsp
    rw [← hparams, ← hlen] at hmax hover
    obtain ⟨t', ht', -, -, hrsp'⟩ := exec_transform_of_not_fits k n hmax hover
    exact ⟨t', ht', hrsp'⟩

/-- Settles O25: the output is the stream, whose length is that of the data. -/
theorem transformPreservesLength : Obligations.TransformPreservesLength := by
  unfold Obligations.TransformPreservesLength
  intro data key nonce c s t out h hrsp
  obtain ⟨-, -, k, n, -, -, rfl⟩ := exec_transform_of_ok h hrsp
  exact streamOutput_length k c n data

/-- Settles O26: the stream and the policy's limit both split where whole blocks end. -/
theorem transformSeeksByBlocks : Obligations.TransformSeeksByBlocks := by
  unfold Obligations.TransformSeeksByBlocks
  intro a b key nonce c s ha
  constructor
  · intro t out h hrsp
    obtain ⟨hmax, hfits, k, n, rfl, rfl, rfl⟩ := exec_transform_of_ok h hrsp
    rw [List.length_append] at hmax hfits
    obtain ⟨ta, hta, -, -, hrspa⟩ := exec_transform_of_fits (data := a) k n (by omega) (hfits.mono (by omega))
    obtain ⟨tb, htb, -, -, hrspb⟩ := exec_transform_of_fits (data := b) k n (by omega) (hfits.after_blocks ha)
    exact ⟨ta, tb, _, _, hta, hrspa, htb, hrspb, streamOutput_append k c n b ha⟩
  · intro ta tb outA outB hc hmax hta hrspa htb hrspb
    obtain ⟨-, -, k, n, rfl, rfl, rfl⟩ := exec_transform_of_ok hta hrspa
    obtain ⟨-, hfitsb, k', n', hk, hn, rfl⟩ := exec_transform_of_ok htb hrspb
    obtain rfl : k' = k := Vector.toList_inj.mp hk
    obtain rfl : n' = n := Vector.toList_inj.mp hn
    have hfits := hfitsb.of_after_blocks ha hc
    rw [← List.length_append] at hfits
    obtain ⟨t, ht, -, -, hrsp⟩ := exec_transform_of_fits k' n' hmax hfits
    exact ⟨t, ht, streamOutput_append k' c n' b ha ▸ hrsp⟩

/-- Settles O27: the stream of zero bytes is the keystream, its first 64 bytes the block of BLOCK. -/
theorem transformOfZerosIsKeystream : Obligations.TransformOfZerosIsKeystream := by
  unfold Obligations.TransformOfZerosIsKeystream
  intro key nonce c n s s' hlazy hmax hnb
  have hlen : (List.replicate n (0 : Byte)).length = n := List.length_replicate
  have hfits : FitsPolicy s.params.overflowPolicy c n := by
    rw [hlazy, fitsPolicy_lazy_iff, numBlocks]
    omega
  rw [← hlen] at hmax hfits
  obtain ⟨t, ht, hok, -, hrsp⟩ := exec_transform_of_fits key nonce hmax hfits
  refine ⟨t, _, ht, hok, hrsp, ?_, fun i hi => ?_, ?_⟩
  · rw [streamOutput_length, hlen]
  · rw [List.getElem?_eq_getElem (by simpa using hi), streamOutput_zeros_getElem, keystreamByte]
  · rintro rfl
    obtain ⟨t', ht', -, -, hrsp'⟩ := blockAnswersBlockfn key c nonce s'
    exact ⟨t', ht', by rw [hrsp', hrsp, streamOutput_zeros_block]⟩

/-- Settles O30: the loop leaves the sequencer at the end of the last block. -/
theorem transformSequencerEnd : Obligations.TransformSequencerEnd := by
  unfold Obligations.TransformSequencerEnd
  intro data key nonce c s t h hok
  obtain ⟨-, ⟨k, n, u, -, -, hfits, -, hu, rfl⟩ | ⟨_, _, u, -, -, -, -, rfl⟩ | ⟨-, rfl⟩⟩ := execTransform_cases h
  · have hlimit := counterLimit_le s.params.overflowPolicy
    have hcovers : data.length ≤ 64 * numBlocks data.length := by
      rw [numBlocks]
      omega
    constructor
    · rw [respondOk_off, hu.off_eq, Nat.min_eq_right hcovers]
    · rw [respondOk_ctr, hu.ctr_eq, BitVec.toNat_ofNat, workOf, Nat.mul_div_cancel_left _ (by decide)]
      exact Nat.mod_eq_of_lt (by omega)
  · simp [Failure.toStatus] at hok
  · simp [Failure.toStatus] at hok

/-- Settles O31: the latches and the input buffers hold the operands from the start on (`execTransform_keeps`). -/
theorem transformFrame : Obligations.TransformFrame := by
  unfold Obligations.TransformFrame
  intro data key nonce c s t h
  obtain ⟨_, hkeeps⟩ := execTransform_keeps h
  simp [hkeeps.pa, hkeeps.pb, hkeeps.pc, hkeeps.pd, hkeeps.params, hkeeps.req, hkeeps.ctr0, hkeeps.klen, hkeeps.nlen,
    hkeeps.len, hkeeps.key, hkeeps.nonce, hkeeps.data]

/-- Settles O21: the length check comes before the loop; what has run until then writes latches and ports. -/
theorem transformWrongLengthInvalidInput : Obligations.TransformWrongLengthInvalidInput := by
  unfold Obligations.TransformWrongLengthInvalidInput
  intro data key nonce c s hlen hmax
  refine ⟨_, execTransform_invalid c s hlen hmax, raiseFailure_status _ _, raiseFailure_busy _ _, raiseFailure_rsp _ _, ?_⟩
  simp

/-- TRANSFORM of no data: the loop makes no turn (R143). -/
theorem execTransform_nil (key : Vector Byte 32) (nonce : Vector Byte 12) (c : Word) (s : State) :
    execTransform [] key.toList nonce.toList c s =
      .next (respondOk ((s.accept.latchKeyNonce key.toList nonce.toList c).latchData []).startDriver) := by
  rw [execTransform_valid [] key nonce c s (Nat.zero_le _)]
  exact thenRun_running (by simp) _

/-- Settles O23: what runs for no data writes latches, CTR, OFF, OUT, STATUS and the ports. -/
theorem transformZeroLength : Obligations.TransformZeroLength := by
  unfold Obligations.TransformZeroLength
  intro key nonce c s
  refine ⟨_, execTransform_nil key nonce c s, respondOk_status _, respondOk_busy _, ?_, ?_⟩
  · rw [respondOk_rsp, State.startDriver_mem_out]
    rfl
  · simp

end Sys2Proof.Machine

namespace Sys2Proof.Machine

/-! SELFTEST (43_selftest R160 to R162). -/

/-- Of the buffers, the block function writes KS only (R22). -/
theorem State.runBlock_read (key : Vector Byte 32) (c : Word) (nonce : Vector Byte 12) (s : State) {b : Buf}
    (hb : b ≠ .ks) (off len : Nat) : (s.runBlock key c nonce).mem.read b off len = s.mem.read b off len := by
  cases b with
  | key | nonce | data | out => exact Memory.read_congr (by simp [Memory.bytes]) off len
  | ks => exact absurd rfl hb

/-- Settles O33: the updates of `execSelftest_eq` write the block's own registers, KS, OUT, STATUS and the ports. -/
theorem selftestFrame : Obligations.SelftestFrame := by
  unfold Obligations.SelftestFrame
  intro s t h
  obtain rfl := Host.Outcome.next.inj ((execSelftest_eq s).symm.trans h)
  simp +contextual [State.runBlock_read]

/-- R161: the block of the self-test constants is the published one, by kernel evaluation of its 80 quarter-rounds. -/
theorem blockFn_selftest : blockFn stKey stCounter stNonce = stExpect := by decide +kernel

/-- Settles O32: SELFTEST ends by `respondOk` with one byte in OUT, which is 0x01 since the blocks agree. -/
theorem selftestAnswersTrue : Obligations.SelftestAnswersTrue := by
  unfold Obligations.SelftestAnswersTrue
  intro s
  refine ⟨_, execSelftest_eq s, respondOk_status _, respondOk_busy _, ?_⟩
  rw [respondOk_rsp, State.withOut_mem_out, if_pos (congrArg Vector.toList blockFn_selftest)]
  rfl

end Sys2Proof.Machine

namespace Sys2Proof.Machine

/-! Whole interactions with the host (60_exceptions R177, R178, R185). The CORE answers only when it is free; then the answer
is that of a step on the request, and it leaves the CORE free again under the same open parameters. -/

/-- R198, U3: the CORE has answered and the host has the response, so the host may submit a request. -/
structure State.Free (s : State) : Prop where
  idle : s.busy = false
  noRequest : s.req = none
  noResponse : s.rsp = none

/-- The state with a request handed over, which `hostSubmit` makes of a free one. -/
def State.withRequest (req : List Byte) (s : State) : State := { s with req := some req }

section Interaction

variable {req : List Byte} {r : Option (List Byte)} {s s1 t u : State}

@[simp] theorem State.withRequest_busy : (s.withRequest req).busy = s.busy := by rw [State.withRequest]

@[simp] theorem State.withRequest_req : (s.withRequest req).req = some req := by rw [State.withRequest]

@[simp] theorem State.withRequest_params : (s.withRequest req).params = s.params := by rw [State.withRequest]

theorem State.Free.hostSubmit_eq (h : s.Free) (req : List Byte) : hostSubmit req s = .next (s.withRequest req) := by
  simp [hostSubmit, State.withRequest, h.idle, h.noRequest, h.noResponse]

/-- A request is taken only from a free state (R198). -/
theorem hostSubmit_cases (h : hostSubmit req s = .next t) : s.Free ∧ t = s.withRequest req := by
  unfold hostSubmit at h
  split at h
  · cases h
  · next hfree =>
    simp only [Bool.or_eq_true, not_or, Bool.not_eq_true, Option.isSome_eq_false_iff, Option.isNone_iff_eq_none] at hfree
    obtain ⟨⟨hidle, hreq⟩, hrsp⟩ := hfree
    exact ⟨⟨hidle, hreq, hrsp⟩, (Host.Outcome.next.inj h).symm⟩

/-- All an interaction that ends with a response can be: the request served, the response taken. -/
theorem transact_cases (h : transact req s = .next (r, s1)) :
    s.Free ∧ ∃ t, serve req (s.withRequest req) = .next t ∧ hostTakeResponse t = (r, s1) := by
  unfold transact at h
  split at h
  · next s' hsubmit =>
    obtain ⟨hfree, rfl⟩ := hostSubmit_cases hsubmit
    rw [step_of_request (by simp [hfree.idle]) State.withRequest_req] at h
    split at h
    · next t hserve => exact ⟨hfree, t, hserve, Host.Outcome.next.inj h⟩
    · cases h
    · cases h
  · cases h
  · cases h

/-- After a response the CORE is free again, its open parameters unchanged (R177). -/
theorem free_of_transact (h : transact req s = .next (r, s1)) : s.Free ∧ s1.Free ∧ s1.params = s.params := by
  obtain ⟨hfree, t, hserve, htake⟩ := transact_cases h
  have hanswer := serve_answers req (s.withRequest req)
  rw [hserve] at hanswer
  obtain ⟨hidle, -⟩ := hanswer.response
  have hreq : t.req = none := serve_req hserve
  have hparams : t.params = s.params := by simpa using hanswer.params_eq
  cases htake
  exact ⟨hfree, ⟨hidle, hreq, rfl⟩, hparams⟩

theorem State.Free.responseOf_transact (h : s.Free) (req : List Byte) :
    responseOf (transact req s) = observe (step (s.withRequest req)) := by
  simp only [transact, h.hostSubmit_eq]
  cases step (s.withRequest req) <;> rfl

/-- R178: free states with the same open parameters answer every request alike. -/
theorem State.Free.responseOf_transact_congr (hs : s.Free) (hu : u.Free) (hparams : s.params = u.params)
    (req : List Byte) : responseOf (transact req s) = responseOf (transact req u) := by
  rw [hs.responseOf_transact, hu.responseOf_transact]
  exact (responseDependsOnRequestOnly _ _ req (by simp [hs.idle]) (by simp [hu.idle]) State.withRequest_req
    State.withRequest_req (by simpa using hparams)).1

theorem exists_transact_of_responseOf (h : responseOf (transact req s) = .next r) :
    ∃ t, transact req s = .next (r, t) := by
  unfold responseOf at h
  split at h
  · next p hp => cases h; exact ⟨p.2, hp⟩
  · cases h
  · cases h

end Interaction

/-- Settles O50: the states before and after a response are both free, with the same open parameters. -/
theorem retryGivesTheSameResponse : Obligations.RetryGivesTheSameResponse := by
  unfold Obligations.RetryGivesTheSameResponse
  intro s s1 req r h
  obtain ⟨hs, hs1, hparams⟩ := free_of_transact h
  have hsame := hs1.responseOf_transact_congr hs hparams
  refine ⟨exists_transact_of_responseOf ?_, hsame⟩
  rw [hsame, h, responseOf]

end Sys2Proof.Machine

namespace Sys2Proof.Machine

/-! Several instances (60_exceptions R181, 20_memory R59). -/

/-- R30: the open parameters are no state; no step changes them. -/
theorem step_params {s t : State} (h : step s = .next t) : t.params = s.params := by
  cases hbusy : s.busy with
  | true =>
    rw [step_of_busy hbusy] at h
    cases h
  | false =>
    cases hreq : s.req with
    | none =>
      rw [step_of_no_request hbusy hreq] at h
      cases h
      rfl
    | some req =>
      have hanswer := serve_answers req s
      rw [← step_of_request hbusy hreq, h] at hanswer
      exact hanswer.params_eq

/-- What a step puts into an instance is read back whole, since it has the platform's parameters. -/
theorem Platform.core_withCore_of_step {n : Nat} {p : Platform n} {k : Fin n} {s : State}
    (h : step (p.core k) = .next s) : (p.withCore k s).core k = s := by
  have hparams : s.params = p.params := step_params h
  rw [Platform.core_withCore_self, ← hparams]

/-- R181: a step of instance `k` writes nothing that a step of another instance reads or writes. -/
theorem stepInstance_comm {n : Nat} {j k : Fin n} {p p1 p2 : Platform n} (hjk : j ≠ k)
    (hk : stepInstance k p = .next p1) (hj : stepInstance j p1 = .next p2) :
    ∃ p1', stepInstance j p = .next p1' ∧ stepInstance k p1' = .next p2 := by
  obtain ⟨s, hs, rfl⟩ := Platform.act_cases hk
  obtain ⟨t, ht, rfl⟩ := Platform.act_cases hj
  rw [p.core_withCore_ne hjk] at ht
  have hs' : step ((p.withCore j t).core k) = .next s := by rwa [p.core_withCore_ne hjk.symm]
  exact ⟨p.withCore j t, Platform.act_next ht, p.withCore_comm hjk s t ▸ Platform.act_next hs'⟩

/-- Settles O51: a step of an instance is `withCore` of the state that the instance alone steps to. -/
theorem instancesAreIndependent : Obligations.InstancesAreIndependent := by
  unfold Obligations.InstancesAreIndependent
  intro n j k p p1 hk
  obtain ⟨s, hs, rfl⟩ := Platform.act_cases hk
  refine ⟨?_, p.withCore_params k s, fun i hi => p.core_withCore_ne hi s, fun hjk p2 hj => stepInstance_comm hjk hk hj⟩
  rw [Platform.core_withCore_of_step hs, hs]

/-- Settles O52: an instance answers as its state alone does, and free states with the same open parameters answer alike. -/
theorem responseIndependentOfInstance : Obligations.ResponseIndependentOfInstance := by
  unfold Obligations.ResponseIndependentOfInstance
  intro n m p q j k req hparams hjbusy hjreq hjrsp hkbusy hkreq hkrsp
  have hj : (p.core j).Free := ⟨hjbusy, hjreq, hjrsp⟩
  have hk : (q.core k).Free := ⟨hkbusy, hkreq, hkrsp⟩
  rw [responseOfInstance_transact, responseOfInstance_transact]
  exact hj.responseOf_transact_congr hk hparams req

end Sys2Proof.Machine

namespace Sys2Proof.Machine

/-! The sequencer (10_state R23, 70_reset_and_hazards R202): a quarter-round step moves DR and QI by their own values
alone. -/

theorem State.quarterStep_qi (s : State) : s.quarterStep.qi = if s.qi = 7 then 0 else s.qi + 1 := by
  unfold State.quarterStep State.advance
  split <;> rfl

theorem State.quarterStep_dr (s : State) : s.quarterStep.dr = if s.qi = 7 then s.dr + 1 else s.dr := by
  unfold State.quarterStep State.advance
  split <;> rfl

/-- Settles O15, by induction on the number of steps: after one step DR and QI are equal again. -/
theorem scheduleIndependentOfData : Obligations.ScheduleIndependentOfData := by
  unfold Obligations.ScheduleIndependentOfData
  intro s u hdr hqi n
  induction n generalizing s u with
  | zero => exact ⟨hdr, hqi⟩
  | succ n ih =>
    have hdr' : s.quarterStep.dr = u.quarterStep.dr := by rw [s.quarterStep_dr, u.quarterStep_dr, hdr, hqi]
    have hqi' : s.quarterStep.qi = u.quarterStep.qi := by rw [s.quarterStep_qi, u.quarterStep_qi, hqi]
    exact ih s.quarterStep u.quarterStep hdr' hqi'

end Sys2Proof.Machine

namespace Sys2Proof.Machine

/-! What the keystream's independence of the data gives away (70_reset_and_hazards R195, R199). -/

section Stream

variable (key : Vector Byte 32) (c : Word) (nonce : Vector Byte 12) (data : List Byte)

theorem streamOutput_getD {i : Nat} (hi : i < data.length) :
    (streamOutput key c nonce data).getD i 0 = data.getD i 0 ^^^ keystreamByte key c nonce i := by
  rw [List.getD_eq_getElem _ _ (by rwa [streamOutput_length]), List.getD_eq_getElem _ _ hi, streamOutput_getElem]

/-- R199: a mask put on one input byte comes out on that output byte, and nowhere else. -/
theorem streamOutput_set_xor (mask : Byte) {i : Nat} (hi : i < data.length) :
    streamOutput key c nonce (data.set i (data.getD i 0 ^^^ mask)) =
      (streamOutput key c nonce data).set i ((streamOutput key c nonce data).getD i 0 ^^^ mask) := by
  rw [streamOutput_getD key c nonce data hi, BitVec.xor_assoc, BitVec.xor_comm (keystreamByte key c nonce i),
    ← BitVec.xor_assoc]
  exact List.mapIdx_set

end Stream

/-- Settles O28: at the shared offset both streams take the same keystream byte, and it cancels. -/
theorem keystreamReuseLeaksXor : Obligations.KeystreamReuseLeaksXor := by
  unfold Obligations.KeystreamReuseLeaksXor
  intro d1 d2 key nonce c1 c2 s1 s2 t1 t2 o1 o2 k h1 hrsp1 h2 hrsp2 hc i hi1 hi2
  obtain ⟨-, -, kv, nv, rfl, rfl, rfl⟩ := exec_transform_of_ok h1 hrsp1
  obtain ⟨-, -, kv', nv', hk, hn, rfl⟩ := exec_transform_of_ok h2 hrsp2
  obtain rfl : kv' = kv := Vector.toList_inj.mp hk
  obtain rfl : nv' = nv := Vector.toList_inj.mp hn
  have hctr : c2 = c1 + BitVec.ofNat 32 k := by bv_omega
  have hshared : keystreamByte kv' c1 nv' (64 * k + i) = keystreamByte kv' c2 nv' i := by
    rw [keystreamByte_blocks_add, hctr]
  rw [streamOutput_getD _ _ _ _ hi1, streamOutput_getD _ _ _ _ hi2, hshared, BitVec.xor_assoc,
    xor_xor_cancel_comm_assoc]

/-- Settles O29: the flip keeps the length, so the flipped data fit too, and the stream carries the flip over. -/
theorem flippedInputBitFlipsOutputBit : Obligations.FlippedInputBitFlipsOutputBit := by
  unfold Obligations.FlippedInputBitFlipsOutputBit
  intro data key nonce c s s' t out i b h hrsp hi hparams
  obtain ⟨hmax, hfits, k, n, rfl, rfl, rfl⟩ := exec_transform_of_ok h hrsp
  have hlen : (data.set i (data.getD i 0 ^^^ (1#8 <<< b.val))).length = data.length := List.length_set
  rw [← hparams, ← hlen] at hmax hfits
  obtain ⟨t', ht', -, -, hrsp'⟩ := exec_transform_of_fits k n hmax hfits
  exact ⟨t', ht', streamOutput_set_xor k c n data _ hi ▸ hrsp'⟩

end Sys2Proof.Machine

namespace Sys2Proof.Machine

/-! Reset, idle and busy (70_reset_and_hazards R190, R191, R198). -/

theorem hostSubmit_of_not_free {s : State} (h : ¬ s.Free) (req : List Byte) :
    hostSubmit req s = .refused .busyInstance := by
  by_contra hnot
  have hnext : hostSubmit req s = .next (s.withRequest req) := if_neg fun hbusy => hnot (if_pos hbusy)
  exact h (hostSubmit_cases hnext).1

/-- R191: whatever ran, waited or was untaken before a reset, the CORE is free after it. -/
theorem hostReset_free (left s : State) : (hostReset left s).Free := ⟨rfl, rfl, rfl⟩

/-- R30: a reset leaves the open parameters. -/
@[simp] theorem hostReset_params (left s : State) : (hostReset left s).params = s.params := by rw [hostReset]

theorem State.reset_free : State.reset.Free := ⟨rfl, rfl, rfl⟩

/-- Settles O49: both resets leave free states with the same open parameters, which answer every request alike. -/
theorem hostResetAbandons : Obligations.HostResetAbandons := by
  unfold Obligations.HostResetAbandons
  intro left s
  have hs := hostReset_free left s
  refine ⟨hs.idle, hs.noRequest, hs.noResponse, hostReset_params left s, fun left' s' req hparams => ?_⟩
  exact hs.responseOf_transact_congr (hostReset_free left' s') (by simp [hparams]) req

/-- Settles O42: both kinds of step by their lemmas; a state that runs or holds a request or a response is not free. -/
theorem stepIdleAndBusy : Obligations.StepIdleAndBusy := by
  unfold Obligations.StepIdleAndBusy
  refine ⟨fun _ => step_of_no_request, fun _ => step_of_busy, fun s req hs => hostSubmit_of_not_free ?_ req⟩
  rintro ⟨hidle, hreq, hrsp⟩
  simp [hidle, hreq, hrsp] at hs

/-- Settles O47: the buffers at reset are empty, as their latches say, and no response is pending. -/
theorem invariantAtReset : Obligations.InvariantAtReset := ⟨rfl, Memory.wf_reset, rfl⟩

/-- Settles O48: the state at reset is free, so every request is taken from it. -/
theorem resetIsIdle : Obligations.ResetIsIdle := by
  unfold Obligations.ResetIsIdle
  have hfree := State.reset_free
  exact ⟨hfree.idle, hfree.noRequest, hfree.noResponse, fun req => hfree.hostSubmit_eq req, rfl⟩

end Sys2Proof.Machine
